-- ==== Sys2Proof/Word.lean ====
section
/-! DEFINITION. The word types of the 724. Counts and times are plain numbers: a time is in nanoseconds on
the model's clock (assumption 1). -/

namespace Sys2Proof

/-- One byte: a bus character's data (R104) or an EEPROM byte (R167). -/
abbrev Byte := BitVec 8

/-- A dome frame number or a level serial: 16 bits, taken modulo 65536 (00_scope.md, Conventions). -/
abbrev FrameNo := BitVec 16

end Sys2Proof
end

