-- ==== Sys2Proof/Config.lean ====
section
/-! DEFINITION. What the spec leaves open (free values: constants with no body) and the fixed
durations of the 724, in nanoseconds. -/

namespace Sys2Proof.Config

/-- FREE VALUE (assumption 7, R176): which bits of a byte of a page whose write was cut by a loss of
supply hold the new data. The first argument is the State's draw counter, the second the byte's offset. -/
opaque powerLossMask : Nat → Nat → BitVec 8

/-- FREE VALUE (assumption 8, R146): one component of a DRAM pixel that nothing has written.
The arguments are the buffer, the row, the column and the component. -/
opaque dramPixel : Nat → Nat → Nat → Nat → BitVec 10

/-- FREE VALUE (assumption 13, R156): the code that the Photometer's converter gives at a time for which the
State's `converter` holds none. The argument is the time at which the sample is taken. -/
opaque converterCode : Nat → BitVec 12

/-- What an EEPROM byte that nothing has written reads as: the unprogrammed part of R168
(assumption 5, DESIGN CHOICE). -/
def blankByte : Byte := 0xFF

/-- One microsecond, in nanoseconds. -/
def microsecond : Nat := 1000

/-- One millisecond, in nanoseconds. -/
def millisecond : Nat := 1000000

/-- The EEPROM's size in bytes (R167). -/
def eepromBytes : Nat := 65536

end Sys2Proof.Config
end

