-- ==== Sys2Proof/Syntax.lean ====
section
/-! DEFINITION. The commands of the 724: one constructor of `Instr` for each row of
`spec/opcode_table.json`. The table gives no row any fields; an operand here is the stimulus that the
row's rule speaks of. `t` is the time of an outside event (assumption 1), `codes` what the Photometer's converter gives next
(assumption 13). -/

namespace Sys2Proof

/-- The levels of the five strap pins (R165). -/
structure Straps where
  stn : Fin 32
  long : Bool
  mirx : Bool
  flipy : Bool
  svc : Bool
  deriving DecidableEq, Repr

/-- One pixel of the input link: three 10-bit components (R3, R141). -/
structure Pixel where
  red : BitVec 10
  green : BitVec 10
  blue : BitVec 10
  deriving DecidableEq, Repr

/-- The eleven bits of a character on the bus line, as the receiver reads them: bit i of the word is the
level in bit time i of the character (R104). -/
abbrev CharacterBits := BitVec 11

/-- The commands, in the table's order. -/
inductive Instr where
  | powerOn (t : Nat)
  | pinReset (t : Nat)
  | resetRelease (t : Nat) (straps : Straps)
  | eepromAcknowledge (t : Nat)
  | eepromReadyTimeout
  | headerCheck (t : Nat)
  | sectionCheck (t : Nat)
  | loadFinished (t : Nat)
  | frameLineFall (t : Nat)
  | frameLineRise (t : Nat)
  | frameTimerExpiry
  | assertionEnd
  | lineStuck
  | lineRecovery
  | pacePulseEnd
  | rasterDone
  | listenPeriodEnd
  | rejoin
  | peerLost (n : Nat)
  | peerPurge (n : Nat)
  | announcementDue
  | holdLimitPassed
  | inputLossTimeout
  | frameStart (t : Nat)
  | line (t : Nat) (pixels : List Pixel)
  | frameEnd (t : Nat)
  | scanComplete (codes : List (BitVec 12))
  | characterReceived (t : Nat) (bits : CharacterBits)
  | assemblerTimeout
  | statusApplied
  | joinApplied
  | leaveApplied
  | orderTooShort
  | orderUnknown
  | level
  | dark
  | light
  | pattern
  | readStartRecord
  | readCounters
  | readPeerEntry
  | readZone
  | readFaultRecord
  | readPhotometer
  | readLevels
  | clear
  | store
  | restart
  | restartReset
  | sleep
  | wake
  | storeTransferEnd (t : Nat)
  | storeFlagClear
  | gapElapsed
  | backoffElapsed
  | leadStart
  | collision (t : Nat)
  | messageSent
  | startBit (t : Nat)
  | powerLost (t : Nat)
  deriving DecidableEq, Repr

end Sys2Proof
end

