-- ==== Sys2Proof/Decode.lean ====
section
/-! DEFINITION. The decoder over the rows of `spec/opcode_table.json` that give bits. -/

namespace Sys2Proof

/-- The command that a word spells by the table's bits. No row of the table gives any bits: the 724
has no register window and no processor port (00_scope.md), so no word spells a command (assumption 17).
The bytes of a bus message are read by `Machine.Bus` and `Machine.Operands`, not here. -/
def decodeTableWord (_nbits _w : Nat) : Option Instr := none

end Sys2Proof
end

