-- ==== Sys2Proof/Machine/State.lean ====
section
/-! DEFINITION. The state of the 724, block by block as 00_scope.md lists the owners, and the state
right after reset. INVENTORY.md gives each field's rule and reset value. -/

namespace Sys2Proof.Machine

/-! ### Outcomes -/

/-- The ways the machine stops with a fault. The spec names none: the fault kinds of R185 are records
of the Fault Unit, which the machine keeps and runs on. So there is no constructor. Safe. -/
inductive Fault
  deriving DecidableEq, Repr

/-- The ways a command is refused. -/
inductive Refusal where
  /-- Raised by `exec` alone, for a command that has no meaning yet. Safe: nothing is claimed of it. -/
  | notModelled (mnemonic : String)
  deriving DecidableEq, Repr

/-! ### Supply and reset (R164, R176) -/

/-- Whether the part has no supply, is held in a power-on or pin reset, or runs. -/
inductive ResetPhase where
  | unpowered | held | running
  deriving DecidableEq, Repr

/-- The reset cause of the start record (R166). -/
inductive ResetCause where
  | power | pin | restart
  deriving DecidableEq, Repr

/-- A step that the last frame mark has made due (assumption 3). -/
inductive DueStep where
  | listenPeriodEnd | rejoin | peerLost (n : Nat) | peerPurge (n : Nat) | announcement | holdLimit
  deriving DecidableEq, Repr

/-! ### Image Loader (R166 to R176) -/

/-- The EEPROM: address and byte pairs in canonical form. -/
abbrev Memory := List Host.Cell

/-- A check result of one section (R166). -/
inductive CheckResult where
  | notChecked | passed | failed
  deriving DecidableEq, Repr

/-- Where the load stands (R168 to R172). `section k` waits for the last byte of section k. -/
inductive LoadPhase where
  | idle | waiting (since : Nat) | header | sections (next : Nat) | ended
  deriving DecidableEq, Repr

/-- The dither modes (R25). -/
inductive DitherMode where
  | still | alternate | rotate | swap
  deriving DecidableEq, Repr

/-- The fields of the image header after clamping (R167, R170). `enables` is for inputs 0 to 3 and
`sums` holds the sums of sections 1 to 5. -/
structure Header where
  cellExp : Nat
  outW : Nat
  outH : Nat
  inW : Nat
  inH : Nat
  nx : Nat
  ny : Nat
  period : Nat
  announce : Nat
  lead : Nat
  silence : Nat
  listenTime : Nat
  joinCode : Nat
  leaveCode : Nat
  faultCode : Nat
  lossCode : Nat
  floor : Nat
  lampThreshold : Nat
  thermalLimit : Nat
  holdLimit : Nat
  dither : DitherMode
  enables : List Bool
  divisor : Nat
  startDark : Bool
  lockCount : Nat
  sums : List Nat
  deriving DecidableEq, Repr

/-- The start record (R166). -/
structure StartRecord where
  resetCause : ResetCause
  straps : Straps
  blank : Bool
  svcStrap : Bool
  stationZero : Bool
  checkFail : Option Nat
  clamped : Nat
  deriving DecidableEq, Repr

/-- A write to the EEPROM: 32 bytes at an address (R174). -/
structure StoreWrite where
  address : Nat
  bytes : List Byte
  deriving DecidableEq, Repr

/-- The Image Loader's state (R166, R174 to R176). `transfer` is the write still on the I2C line;
`cycle` is the EEPROM's own write cycle, with the bytes it replaces. -/
structure Loader where
  record : StartRecord
  checks : List CheckResult
  phase : LoadPhase
  header : Option Header
  storeInFlight : Bool
  storeBegan : Nat
  transfer : Option StoreWrite
  cycle : Option StoreWrite
  deriving DecidableEq, Repr

/-- One node of the warp mesh, as its four words (R7, R15, R167). -/
structure Node where
  u : Nat
  v : Nat
  entryA : Nat
  entryB : Nat
  deriving DecidableEq, Repr

/-- The configuration that the owners hold since the last load (R172). -/
structure Settings where
  hdr : Header
  period : Option Nat
  hasInput : Bool
  lampGain : Nat
  blackGain : Nat
  decode : List Nat
  encode : List Nat
  mesh : List Node
  deriving DecidableEq, Repr

/-! ### Input Port, buffers, output (R141 to R153) -/

/-- The input link's state (R142). -/
inductive LinkState where
  | idle | receiving | lost
  deriving DecidableEq, Repr

/-- The frame in progress (R142). -/
structure InputFrame where
  buffer : Nat
  sequence : FrameNo
  lines : Nat
  short : Bool
  deriving DecidableEq, Repr

/-- The Input Port's state (R142). The loss timer is held as the time of its expiry. -/
structure InputPort where
  link : LinkState
  frame : Option InputFrame
  startedFrames : FrameNo
  lossDeadline : Option Nat
  hold : Nat
  deriving DecidableEq, Repr

/-- A buffer's state (R146). -/
inductive BufferState where
  | free | filling | ready | shown
  deriving DecidableEq, Repr

/-- One frame buffer record with the pixels written in its DRAM region, by row in rising order (R146). -/
structure FrameBuffer where
  state : BufferState
  sequence : FrameNo
  rows : List (Nat × List Pixel)
  deriving DecidableEq, Repr

/-- The raster in flight: when it began and the position of the next pixel due (R151). -/
structure Raster where
  began : Nat
  next : Nat
  deriving DecidableEq, Repr

/-- An output pixel: one code for each component (R3). -/
structure Rgb where
  red : Nat
  green : Nat
  blue : Nat
  deriving DecidableEq, Repr

/-- The Output Encoder's state (R25, R151). `sent` holds the codes sent of the raster in flight, in
physical order, and `closed` those of the last raster closed: the output link's observable
(assumption 12). -/
structure Encoder where
  raster : Option Raster
  phaseX : Nat
  phaseY : Nat
  sent : List Rgb
  closed : List Rgb
  deriving DecidableEq, Repr

/-- The pattern source (R13). -/
inductive PatternSource where
  | input | flat | grid | zonemap
  deriving DecidableEq, Repr

/-! ### Zones (R28) -/

/-- A ramp record of a zone's fill or of the station fade (R28, R50). -/
structure RampRecord where
  base : Nat
  start : FrameNo
  step : Nat
  up : Bool
  deriving DecidableEq, Repr

/-- The states of a zone (R28). -/
inductive ZoneState where
  | wait | shared | yielding | filling | solo
  deriving DecidableEq, Repr

/-- One zone record (R28). -/
structure Zone where
  enabled : Bool
  neighbour : Nat
  configuredShape : Nat
  agreedShape : Nat
  shapeInUse : Nat
  mismatch : Bool
  oneSided : Bool
  state : ZoneState
  ramp : Option RampRecord
  m : Nat
  deriving DecidableEq, Repr

/-! ### Lifecycle (R50) -/

/-- The nine station states (R50). -/
inductive StationState where
  | start | measure | listen | joining | lit | leaving | dark | service | sleep
  deriving DecidableEq, Repr

/-- The causes (R55). -/
inductive Cause where
  | lampLow | thermal | input | hold
  deriving DecidableEq, Repr

/-- The cause set (R55). -/
structure CauseSet where
  lampLow : Bool
  thermal : Bool
  input : Bool
  hold : Bool
  deriving DecidableEq, Repr

/-- The kinds of a handover record (R50). -/
inductive HandoverKind where
  | join | leave
  deriving DecidableEq, Repr

/-- The reasons of a handover record (R50). -/
inductive Reason where
  | start | rejoin | lampLow | thermal | input | hold | sleep
  deriving DecidableEq, Repr

/-- The own handover record (R50, R58). -/
structure Handover where
  kind : HandoverKind
  start : FrameNo
  code : Nat
  reason : Reason
  deriving DecidableEq, Repr

/-- The Lifecycle Controller's state (R50). -/
structure Lifecycle where
  state : StationState
  fade : Nat
  fadeRamp : Option RampRecord
  handover : Option Handover
  causes : CauseSet
  holdDark : Bool
  sleepPending : Bool
  listenCount : Nat
  darkCount : Nat
  deriving DecidableEq, Repr

/-! ### Level (R73) -/

/-- A level record (R79). -/
structure LevelRecord where
  serial : FrameNo
  startLevel : Nat
  target : Nat
  start : FrameNo
  ramp : Nat
  deriving DecidableEq, Repr

/-- The Level Controller's state (R73); `capacity` is C_own. -/
structure LevelControl where
  capacity : Nat
  scaleTarget : Nat
  sapp : Nat
  record : LevelRecord
  unset : Bool
  dapp : Nat
  deriving DecidableEq, Repr

/-! ### Peer table (R87, R98) -/

/-- An entry's state (R87). -/
inductive EntryState where
  | absent | live | lost
  deriving DecidableEq, Repr

/-- The condition flags of a STATUS (R87, R107). -/
structure ConditionFlags where
  lampLow : Bool
  thermal : Bool
  inputLost : Bool
  lineStuck : Bool
  deriving DecidableEq, Repr

/-- A peer's handover record (R87). -/
structure PeerHandover where
  kind : HandoverKind
  start : FrameNo
  code : Nat
  deriving DecidableEq, Repr

/-- One peer entry (R87). -/
structure PeerEntry where
  state : EntryState
  reported : Option StationState
  capacity : Nat
  black : Nat
  frame : FrameNo
  age : Nat
  handover : Option PeerHandover
  levelCopy : Option LevelRecord
  conditions : ConditionFlags
  zoneList : List (Nat × Nat)
  heard : Nat
  deriving DecidableEq, Repr

/-- The announcement schedule (R98). -/
structure Schedule where
  count : Nat
  running : Bool
  deriving DecidableEq, Repr

/-! ### Peer bus (R104 to R125) -/

/-- The kinds of a message (R105). -/
inductive MsgKind where
  | status | join | leave | order | answer
  deriving DecidableEq, Repr

/-- A queued message with its straddle tag (R113, R114). -/
structure Message where
  kind : MsgKind
  sender : Nat
  payload : List Byte
  straddle : Bool
  deriving DecidableEq, Repr

/-- The message in progress of the assembler (R110). -/
structure Assembly where
  lead : Byte
  length : Option Nat
  payload : List Byte
  lastStart : Nat
  straddle : Bool
  deriving DecidableEq, Repr

/-- An answer record (R115). -/
structure AnswerRecord where
  serial : FrameNo
  code : Nat
  result : Nat
  bytes : List Byte
  deriving DecidableEq, Repr

/-- The transmitter's states (R115). -/
inductive TxState where
  | idle | gap | backoff | lead | sending
  deriving DecidableEq, Repr

/-- The item on the line (R115). -/
inductive LineItem where
  | none | status | notice | answer
  deriving DecidableEq, Repr

/-- The Bus Controller's state (R110, R114, R115). `message` is the message on the line, byte by byte,
`txSince` is when the transmitter entered its state, and `markSince` says whether a frame mark came since
the last start bit on the line: a lead character under way then takes it as its straddle mark (R113).
`deaf` says that a difference in a later character of the own message came among the characters on the
line: they are ignored (R121, assumption 33). -/
structure Bus where
  assembly : Option Assembly
  rxQueue : List Message
  statusWanted : Bool
  handoverWanted : Bool
  answers : List AnswerRecord
  txState : TxState
  item : LineItem
  message : List Byte
  txSince : Nat
  attempts : Nat
  backoff : Nat
  gap : Nat
  lastStart : Nat
  markSince : Bool
  deaf : Bool
  lfsr : BitVec 16
  deriving DecidableEq, Repr

/-! ### Frame Timer (R126, R140) -/

/-- The line states (R126). -/
inductive LineState where
  | normal | stuck
  deriving DecidableEq, Repr

/-- The Frame Timer's state (R126, R132, R140). Running timers are held as the time of their end. -/
structure FrameTimer where
  expiry : Option Nat
  lineState : LineState
  number : FrameNo
  unset : Bool
  lastMark : Option Nat
  assertion : Option Nat
  lowSince : Option Nat
  lowOwn : Bool
  highSince : Option Nat
  lineLow : Bool
  pace : Option Nat
  deriving DecidableEq, Repr

/-! ### Photometer (R154) -/

/-- One input record (R154). -/
structure InputRecord where
  enabled : Bool
  average : Nat
  streak : Nat
  deriving DecidableEq, Repr

/-- The measurement: scans completed and the BLACK averages so far (R154, R159). -/
structure Measurement where
  scans : Nat
  blacks : List Nat
  deriving DecidableEq, Repr

/-- The scan in progress (R154): when it began, its round 1..16, and the samples taken so far, in the order
in which they were taken: round by round, in each round the enabled inputs in ascending index (R156). -/
structure Scan where
  began : Nat
  round : Nat
  samples : List (BitVec 12)
  deriving DecidableEq, Repr

/-- A scan that begins now: round 1, no sample taken (R157). -/
def Scan.begun (now : Nat) : Scan := { began := now, round := 1, samples := [] }

/-- What the Photometer holds from scan to scan (R154). -/
structure Photometer where
  inputs : List InputRecord
  capacity : Nat
  black : Nat
  lampLow : Bool
  thermal : Bool
  measurement : Option Measurement
  deriving DecidableEq, Repr

/-! ### Console Agent and Fault Unit (R177, R184 to R186) -/

/-- The Console Agent's state (R177). `restartReleased` is the Bus Controller's report that the
RESTART's answer has left, or that there is none (R182). -/
structure Console where
  inHand : Option Message
  restartPending : Bool
  restartReleased : Bool
  deriving DecidableEq, Repr

/-- The fault kinds (R185). -/
inductive FaultKind where
  | lineStuck | lampLow | thermal | inputLost | busAbandon | rxOverflow | answerOverflow
  | shapeMismatch | duplicateStation | imageCheck | zoneConfig
  deriving DecidableEq, Repr

/-- A filled fault capture record (R184). -/
structure FaultRecord where
  kind : FaultKind
  frame : FrameNo
  state : StationState
  detail : Nat
  deriving DecidableEq, Repr

/-- The counters' names (R186). -/
inductive Counter where
  | collision | abandon | broken | discard | overflow | answerDrop | early | adopt | drop | repeated
  | trunc | cut
  deriving DecidableEq, Repr

/-- The counter block, in the order of R186's table. -/
structure CounterBlock where
  collision : Nat
  abandon : Nat
  broken : Nat
  discard : Nat
  overflow : Nat
  answerDrop : Nat
  early : Nat
  adopt : Nat
  drop : Nat
  repeated : Nat
  trunc : Nat
  cut : Nat
  deriving DecidableEq, Repr

/-- The Fault Unit's state (R184, R186). -/
structure FaultUnit where
  record : Option FaultRecord
  overflow : Nat
  counters : CounterBlock
  deriving DecidableEq, Repr

/-! ### The state -/

/-- The state of one 724. `scan` is the Photometer's scan in progress (R154), which runs with the clock.
`pending`, `now`, `due`, `draws` and `converter` are the model's own (assumptions 1, 3, 4, 7, 13); `converter`
holds the codes that the Photometer's converter gives next, oldest first. -/
structure State where
  pending : List Instr
  now : Nat
  resetPhase : ResetPhase
  due : List DueStep
  draws : Nat
  straps : Straps
  eeprom : Memory
  loader : Loader
  settings : Settings
  input : InputPort
  buffers : List FrameBuffer
  encoder : Encoder
  patternSource : PatternSource
  flatLevel : Nat
  zones : List Zone
  life : Lifecycle
  level : LevelControl
  peers : List PeerEntry
  schedule : Schedule
  bus : Bus
  timer : FrameTimer
  photo : Photometer
  scan : Option Scan
  converter : List (BitVec 12)
  console : Console
  faults : FaultUnit
  deriving DecidableEq, Repr

/-! ### Reset values -/

/-- The strap values before the first sample (assumption 9, DESIGN CHOICE). -/
def unsampledStraps : Straps := { stn := 0, long := false, mirx := false, flipy := false, svc := false }

/-- The header values in force before a load and, but for the enables, with a blank image or a failed
header (R169, R172); the items R169 does not name are assumption 10. -/
def Header.before : Header :=
  { cellExp := 5, outW := 1920, outH := 1080, inW := 0, inH := 0, nx := 0, ny := 0, period := 16667,
    announce := 8, lead := 8, silence := 24, listenTime := 0, joinCode := 0, leaveCode := 0,
    faultCode := 0, lossCode := 0, floor := 4095, lampThreshold := 400, thermalLimit := 3200,
    holdLimit := 0, dither := .still, enables := [false, false, false, false], divisor := 15,
    startDark := false, lockCount := 0, sums := [0, 0, 0, 0, 0] }

/-- The owners' configuration before the load (R172). -/
def Settings.before : Settings :=
  { hdr := .before, period := none, hasInput := false, lampGain := 256, blackGain := 256, decode := [],
    encode := [], mesh := [] }

/-- The start record as a reset leaves it (R166). -/
def StartRecord.fresh (cause : ResetCause) (straps : Straps) : StartRecord :=
  { resetCause := cause, straps := straps, blank := false, svcStrap := false, stationZero := false,
    checkFail := none, clamped := 0 }

/-- The Image Loader after a reset (R166, R174). -/
def Loader.reset (cause : ResetCause) (straps : Straps) : Loader :=
  { record := .fresh cause straps, checks := List.replicate 6 .notChecked, phase := .idle,
    header := none, storeInFlight := false, storeBegan := 0, transfer := none, cycle := none }

/-- The Input Port after every reset (R142). -/
def InputPort.reset : InputPort :=
  { link := .idle, frame := none, startedFrames := 0, lossDeadline := none, hold := 0 }

/-- A buffer record after every reset (R146). -/
def FrameBuffer.reset : FrameBuffer := { state := .free, sequence := 0, rows := [] }

/-- The Output Encoder after every reset (R25, R151). -/
def Encoder.reset : Encoder := { raster := none, phaseX := 0, phaseY := 0, sent := [], closed := [] }

/-- A disabled zone record, as all eight read until the load is done (R29). R29 gives the neighbour and the
three shapes no value before the load ends; they are 0 here, as after a load with a failed image
(assumption 21, DESIGN CHOICE). -/
def Zone.disabled : Zone :=
  { enabled := false, neighbour := 0, configuredShape := 0, agreedShape := 0, shapeInUse := 0,
    mismatch := false, oneSided := false, state := .wait, ramp := none, m := 64 }

/-- The empty cause set (R50). -/
def CauseSet.empty : CauseSet := { lampLow := false, thermal := false, input := false, hold := false }

/-- The Lifecycle Controller after every reset (R50). -/
def Lifecycle.reset : Lifecycle :=
  { state := .start, fade := 0, fadeRamp := none, handover := none, causes := .empty, holdDark := false,
    sleepPending := false, listenCount := 0, darkCount := 0 }

/-- The Level Controller after every reset (R73). -/
def LevelControl.reset : LevelControl :=
  { capacity := 0, scaleTarget := 32768, sapp := 32768,
    record := { serial := 0, startLevel := 1024, target := 1024, start := 0, ramp := 0 },
    unset := true, dapp := 1024 }

/-- All condition flags clear (R87). -/
def ConditionFlags.clear : ConditionFlags :=
  { lampLow := false, thermal := false, inputLost := false, lineStuck := false }

/-- A cleared peer entry (R87). -/
def PeerEntry.cleared : PeerEntry :=
  { state := .absent, reported := none, capacity := 0, black := 0, frame := 0, age := 0,
    handover := none, levelCopy := none, conditions := .clear, zoneList := [], heard := 0 }

/-- The cleared peer table: one entry for each station number 1..31 (R87). -/
def clearedPeers : List PeerEntry := List.replicate 31 .cleared

/-- The announcement schedule after every reset (R98). -/
def Schedule.stopped : Schedule := { count := 0, running := false }

/-- The Bus Controller after a reset at time `now`, seeded with `seed` (R110, R114, R115). -/
def Bus.reset (now : Nat) (seed : BitVec 16) : Bus :=
  { assembly := none, rxQueue := [], statusWanted := false, handoverWanted := false, answers := [],
    txState := .idle, item := .none, message := [], txSince := now, attempts := 0, backoff := 0,
    gap := 24, lastStart := now, markSince := false, deaf := false, lfsr := seed }

/-- The Frame Timer after power-on or pin reset (R126, R140), with the line high (assumption 18). -/
def FrameTimer.reset : FrameTimer :=
  { expiry := none, lineState := .normal, number := 0, unset := true, lastMark := none,
    assertion := none, lowSince := none, lowOwn := false, highSince := none, lineLow := false,
    pace := none }

/-- The Photometer after every reset (R154); before the load every input reads as disabled (R155). -/
def Photometer.reset : Photometer :=
  { inputs := List.replicate 4 { enabled := false, average := 0, streak := 0 }, capacity := 0,
    black := 0, lampLow := false, thermal := false, measurement := none }

/-- The Console Agent after every reset (R177). -/
def Console.reset : Console := { inHand := none, restartPending := false, restartReleased := false }

/-- The counter block, every counter 0 (R186). -/
def CounterBlock.zero : CounterBlock :=
  { collision := 0, abandon := 0, broken := 0, discard := 0, overflow := 0, answerDrop := 0,
    early := 0, adopt := 0, drop := 0, repeated := 0, trunc := 0, cut := 0 }

/-- The Fault Unit after power-on or pin reset (R184, R186). -/
def FaultUnit.clear : FaultUnit := { record := none, overflow := 0, counters := .zero }

/-- The machine right after reset: supply has just come up, the reset still holds the part, and every
block is at its reset value (R164). -/
def State.reset : State :=
  { pending := [], now := 0, resetPhase := .held, due := [], draws := 0, straps := unsampledStraps,
    eeprom := [], loader := .reset .power unsampledStraps, settings := .before, input := .reset,
    buffers := List.replicate 3 .reset, encoder := .reset, patternSource := .input, flatLevel := 0,
    zones := List.replicate 8 .disabled, life := .reset, level := .reset, peers := clearedPeers,
    schedule := .stopped, bus := .reset 0 1, timer := .reset, photo := .reset, scan := none, converter := [],
    console := .reset, faults := .clear }

end Sys2Proof.Machine
end

