-- ==== Sys2Proof/Machine/Ops.lean ====
section
/-! DEFINITION. The named operations that every block uses: updates of the state, frame-number and ramp
arithmetic, saturating counts, fault reports, byte order, the EEPROM and the DRAM rows. -/

namespace Sys2Proof.Machine

/-! ### Updates, one for each part of the state -/

def State.setNow (s : State) (v : Nat) : State := { s with now := v }
def State.setResetPhase (s : State) (v : ResetPhase) : State := { s with resetPhase := v }
def State.setDue (s : State) (v : List DueStep) : State := { s with due := v }
def State.setDraws (s : State) (v : Nat) : State := { s with draws := v }
def State.setStraps (s : State) (v : Straps) : State := { s with straps := v }
def State.setEeprom (s : State) (v : Memory) : State := { s with eeprom := v }
def State.setLoader (s : State) (v : Loader) : State := { s with loader := v }
def State.setSettings (s : State) (v : Settings) : State := { s with settings := v }
def State.setInput (s : State) (v : InputPort) : State := { s with input := v }
def State.setBuffers (s : State) (v : List FrameBuffer) : State := { s with buffers := v }
def State.setEncoder (s : State) (v : Encoder) : State := { s with encoder := v }
def State.setPattern (s : State) (v : PatternSource) : State := { s with patternSource := v }
def State.setFlatLevel (s : State) (v : Nat) : State := { s with flatLevel := v }
def State.setZones (s : State) (v : List Zone) : State := { s with zones := v }
def State.setLife (s : State) (v : Lifecycle) : State := { s with life := v }
def State.setLevel (s : State) (v : LevelControl) : State := { s with level := v }
def State.setPeers (s : State) (v : List PeerEntry) : State := { s with peers := v }
def State.setSchedule (s : State) (v : Schedule) : State := { s with schedule := v }
def State.setBus (s : State) (v : Bus) : State := { s with bus := v }
def State.setTimer (s : State) (v : FrameTimer) : State := { s with timer := v }
def State.setPhoto (s : State) (v : Photometer) : State := { s with photo := v }
def State.setScan (s : State) (v : Option Scan) : State := { s with scan := v }
def State.setConverter (s : State) (v : List (BitVec 12)) : State := { s with converter := v }
def State.setConsole (s : State) (v : Console) : State := { s with console := v }
def State.setFaults (s : State) (v : FaultUnit) : State := { s with faults := v }

/-! ### Frame numbers and ramps -/

/-- a is ahead of b: (a - b) mod 65536 lies in 1..32767 (00_scope.md, Conventions). -/
def ahead (a b : FrameNo) : Bool := decide (1 ≤ (a - b).toNat) && decide ((a - b).toNat ≤ 32767)

/-- f has reached n: (f - n) mod 65536 lies in 0..32767 (00_scope.md, Conventions). So an n exactly 32768 beyond
f is not reached, though R80 and R83 call what lies more than 32767 marks ahead reached (assumption 28, DESIGN
CHOICE). -/
def reached (f n : FrameNo) : Bool := decide ((f - n).toNat ≤ 32767)

/-- The step of a ramp code: 64 / R for a ramp length R of 2 to the code, a code above 6 taken as 6
(00_scope.md, Ramp codes; R28). -/
def rampStep (code : Nat) : Nat := 64 / 2 ^ min code 6

/-- The value of a ramp record at frame number f, clamped to 0..64 (R35). -/
def RampRecord.value (r : RampRecord) (f : FrameNo) : Nat :=
  if reached f r.start then
    let k := (f - r.start).toNat + 1
    if r.up then min 64 (r.base + r.step * k) else min 64 (r.base - r.step * k)
  else r.base

/-- A count that rises by one and saturates. -/
def satInc (cap n : Nat) : Nat := min cap (n + 1)

/-! ### Faults and counters -/

/-- One counter of the block raised, saturating at 65535 (R186). -/
def CounterBlock.raise (b : CounterBlock) : Counter → CounterBlock
  | .collision => { b with collision := satInc 65535 b.collision }
  | .abandon => { b with abandon := satInc 65535 b.abandon }
  | .broken => { b with broken := satInc 65535 b.broken }
  | .discard => { b with discard := satInc 65535 b.discard }
  | .overflow => { b with overflow := satInc 65535 b.overflow }
  | .answerDrop => { b with answerDrop := satInc 65535 b.answerDrop }
  | .early => { b with early := satInc 65535 b.early }
  | .adopt => { b with adopt := satInc 65535 b.adopt }
  | .drop => { b with drop := satInc 65535 b.drop }
  | .repeated => { b with repeated := satInc 65535 b.repeated }
  | .trunc => { b with trunc := satInc 65535 b.trunc }
  | .cut => { b with cut := satInc 65535 b.cut }

/-- The counters' values in the order of R186's table. -/
def CounterBlock.values (b : CounterBlock) : List Nat :=
  [b.collision, b.abandon, b.broken, b.discard, b.overflow, b.answerDrop, b.early, b.adopt, b.drop,
   b.repeated, b.trunc, b.cut]

/-- A counter rises by one (R186). -/
def State.count (s : State) (c : Counter) : State :=
  s.setFaults { s.faults with counters := s.faults.counters.raise c }

/-- A fault report at the Fault Unit: the first fills an empty record, later ones raise the overflow
count (R184). -/
def FaultUnit.report (u : FaultUnit) (r : FaultRecord) : FaultUnit :=
  match u.record with
  | none => { u with record := some r }
  | some _ => { u with overflow := satInc 255 u.overflow }

/-- A block reports a fault; the frame number and station state are taken as they stand (R184). -/
def State.report (s : State) (kind : FaultKind) (detail : Nat) : State :=
  s.setFaults (s.faults.report
    { kind := kind, frame := s.timer.number, state := s.life.state, detail := detail })

/-! ### Bytes -/

/-- The two bytes of a 16-bit field, most significant first (R105). -/
def bytes2 (n : Nat) : List Byte := [BitVec.ofNat 8 (n / 256), BitVec.ofNat 8 n]

/-- One byte of a field. -/
def byte1 (n : Nat) : List Byte := [BitVec.ofNat 8 n]

/-- The byte at an offset of a payload, 0 beyond its end. -/
def byteAt (p : List Byte) (i : Nat) : Nat := (p.getD i 0).toNat

/-- The two-byte field at an offset of a payload, most significant byte first (R105). -/
def wordAt (p : List Byte) (i : Nat) : Nat := byteAt p i * 256 + byteAt p (i + 1)

/-- A bit as a number. -/
def bit (b : Bool) (i : Nat) : Nat := if b then 2 ^ i else 0

/-- Whether bit i of a number is set. -/
def bitOf (n i : Nat) : Bool := decide (n / 2 ^ i % 2 = 1)

/-- Replace the entry at an index through a function. -/
def modifyAt {α : Type} (f : α → α) : Nat → List α → List α
  | _, [] => []
  | 0, x :: xs => f x :: xs
  | n + 1, x :: xs => x :: modifyAt f n xs

/-! ### The EEPROM -/

/-- The byte at an address; one that nothing has written is blank (assumption 5). -/
def Memory.read : Memory → Nat → Byte
  | [], _ => Config.blankByte
  | (a, b) :: m, k => if a = k then b else Memory.read m k

/-- Write one byte, keeping the canonical form: writing the blank byte removes the entry. -/
def Memory.write : Memory → Nat → Byte → Memory
  | [], k, v => if v = Config.blankByte then [] else [(k, v)]
  | (a, b) :: m, k, v =>
    if k < a then (if v = Config.blankByte then (a, b) :: m else (k, v) :: (a, b) :: m)
    else if k = a then (if v = Config.blankByte then m else (k, v) :: m)
    else (a, b) :: Memory.write m k v

/-- Write bytes at rising addresses. -/
def Memory.writeBlock (m : Memory) (a : Nat) : List Byte → Memory
  | [] => m
  | b :: bs => Memory.writeBlock (m.write a b) (a + 1) bs

/-- The n bytes from an address upward. -/
def Memory.readBlock (m : Memory) (a n : Nat) : List Byte :=
  (List.range n).map fun i => m.read (a + i)

/-- The word at an address, most significant byte first (R167). -/
def Memory.word (m : Memory) (a : Nat) : Nat := (m.read a).toNat * 256 + (m.read (a + 1)).toNat

/-- The sum of n words from an address, modulo 65536 (R167). -/
def Memory.sum (m : Memory) (a n : Nat) : Nat :=
  ((List.range n).foldl (fun acc i => acc + m.word (a + 2 * i)) 0) % 65536

/-- The canonical form: addresses strictly rising, and no entry equal to what an unlisted address
reads as. -/
abbrev Memory.wf (m : Memory) : Prop :=
  m.Pairwise (fun x y => x.1 < y.1) ∧ ∀ c ∈ m, c.2 ≠ Config.blankByte

/-! ### The DRAM rows (R144, R146) -/

/-- The pixels written in a row. -/
def rowOf : List (Nat × List Pixel) → Nat → List Pixel
  | [], _ => []
  | (r, ps) :: rest, k => if r = k then ps else rowOf rest k

/-- Write pixels from column 0 of a row; columns beyond them keep what they held. -/
def writeRow : List (Nat × List Pixel) → Nat → List Pixel → List (Nat × List Pixel)
  | [], k, ps => if ps.isEmpty then [] else [(k, ps)]
  | (r, old) :: rest, k, ps =>
    if k < r then (if ps.isEmpty then (r, old) :: rest else (k, ps) :: (r, old) :: rest)
    else if k = r then (r, ps ++ old.drop ps.length) :: rest
    else (r, old) :: writeRow rest k ps

/-- The component of a DRAM pixel: what was written, or a free value (assumption 8). -/
def FrameBuffer.component (b : FrameBuffer) (buffer row col : Nat) (pick : Pixel → BitVec 10)
    (comp : Nat) : BitVec 10 :=
  match (rowOf b.rows row)[col]? with
  | some p => pick p
  | none => Config.dramPixel buffer row col comp

/-! ### Reading the state -/

/-- The station number (R165). -/
def State.stn (s : State) : Nat := s.straps.stn.val

/-- The bit time in ns: 1 us, or 2 us in long-bus mode (R104). -/
def State.bitTime (s : State) : Nat :=
  if s.straps.long then 2 * Config.microsecond else Config.microsecond

/-- The frame period P in ns (R126). -/
def State.periodNs (s : State) : Nat := s.settings.period.getD 16667 * Config.microsecond

/-- The peer entry of station n, 1..31 (R87). -/
def State.peer (s : State) : Nat → PeerEntry
  | 0 => .cleared
  | n + 1 => s.peers.getD n .cleared

/-- Replace the peer entry of station n, 1..31. -/
def State.setPeer (s : State) (n : Nat) (e : PeerEntry) : State :=
  match n with
  | 0 => s
  | k + 1 => s.setPeers (s.peers.set k e)

/-- Zone record z (R28). -/
def State.zone (s : State) (z : Nat) : Zone := s.zones.getD z .disabled

/-- Buffer record b (R146). -/
def State.buffer (s : State) (b : Nat) : FrameBuffer := s.buffers.getD b .reset

/-- Whether the station's light is in the sky: JOINING, LIT or LEAVING. -/
def StationState.inSky : StationState → Bool
  | .joining | .lit | .leaving => true
  | .start | .measure | .listen | .dark | .service | .sleep => false

end Sys2Proof.Machine
end

