-- ==== Sys2Proof/Machine/PixelPath.lean ====
section
/-! DEFINITION. The pixel path: from an output position to an output code (R1 to R26), and the order in
which positions leave (R27). Everything here reads the state as its owners hold it at the moment the
pixel is computed (R2). -/

namespace Sys2Proof.Machine

/-! ### Step 1: the mesh (R7 to R9) -/

/-- A node whose u is 65535 is void (R8). -/
def Node.void (n : Node) : Bool := n.u == 65535

/-- A node that marks its cell as outside the image; read where no node stands (R8 ensures none is). -/
def voidNode : Node := { u := 65535, v := 65535, entryA := 65535, entryB := 65535 }

/-- Node (i, j) of the row-major mesh (R7, R167). -/
def Settings.node (c : Settings) (i j : Nat) : Node := c.mesh.getD (j * c.hdr.nx + i) voidNode

/-- A pixel's place in its mesh cell and the cell's four corner nodes (R8). -/
structure Cell where
  cellExp : Nat
  fx : Nat
  fy : Nat
  n00 : Node
  n10 : Node
  n01 : Node
  n11 : Node
  deriving DecidableEq, Repr

/-- The mesh cell of the pixel at (x, y): i = x >> c, j = y >> c and the offsets (R8). -/
def cellAt (s : State) (x y : Nat) : Cell :=
  let c := s.settings.hdr.cellExp
  let i := x / 2 ^ c
  let j := y / 2 ^ c
  { cellExp := c, fx := x % 2 ^ c, fy := y % 2 ^ c,
    n00 := s.settings.node i j, n10 := s.settings.node (i + 1) j,
    n01 := s.settings.node i (j + 1), n11 := s.settings.node (i + 1) (j + 1) }

/-- Whether a corner of the cell is void (R8). -/
def Cell.anyVoid (k : Cell) : Bool := k.n00.void || k.n10.void || k.n01.void || k.n11.void

/-- The floored bilinear blend of four corner values (R9). -/
def Cell.blend (k : Cell) (a00 a10 a01 a11 : Nat) : Nat :=
  let w := 2 ^ k.cellExp
  (a00 * (w - k.fx) * (w - k.fy) + a10 * k.fx * (w - k.fy) + a01 * (w - k.fx) * k.fy
    + a11 * k.fx * k.fy) / 2 ^ (2 * k.cellExp)

/-- The source column u (R9). -/
def Cell.sourceU (k : Cell) : Nat := k.blend k.n00.u k.n10.u k.n01.u k.n11.u

/-- The source row v (R9). -/
def Cell.sourceV (k : Cell) : Nat := k.blend k.n00.v k.n10.v k.n01.v k.n11.v

/-! ### Step 2: the sample (R10 to R14) -/

/-- The components of a pixel, in order. -/
inductive Component where
  | red | green | blue
  deriving DecidableEq, Repr

/-- A component of an input pixel. -/
def pickComponent (p : Pixel) : Component → BitVec 10
  | .red => p.red
  | .green => p.green
  | .blue => p.blue

/-- A component's number, for the free value of a pixel never written. -/
def Component.index : Component → Nat
  | .red => 0
  | .green => 1
  | .blue => 2

/-- The index of the SHOWN buffer, if any (R146). -/
def shownBuffer (bs : List FrameBuffer) : Option Nat := bs.findIdx? (fun b => b.state == .shown)

/-- The linear light of one fetched input pixel: its code through the decode table (R11). -/
def fetched (s : State) (b col row : Nat) (c : Component) : Nat :=
  s.settings.decode.getD ((s.buffer b).component b row col (fun p => pickComponent p c) c.index).toNat 0

/-- The floored bilinear sample of four decoded values (R12). -/
def bilinear (fu fv p00 p10 p01 p11 : Nat) : Nat :=
  (p00 * (16 - fu) * (16 - fv) + p10 * fu * (16 - fv) + p01 * (16 - fu) * fv + p11 * fu * fv) / 256

/-- The sample of the SHOWN buffer at (u, v), with the last column and row read in place of those
beyond the raster (R11); 0 while no buffer is SHOWN (R12). -/
def inputSample (s : State) (u v : Nat) (c : Component) : Nat :=
  match shownBuffer s.buffers with
  | none => 0
  | some b =>
    let ui := u / 16
    let vi := v / 16
    let uj := min (ui + 1) (s.settings.hdr.inW - 1)
    let vj := min (vi + 1) (s.settings.hdr.inH - 1)
    bilinear (u % 16) (v % 16) (fetched s b ui vi c) (fetched s b uj vi c) (fetched s b ui vj c)
      (fetched s b uj vj c)

/-- lin_in: 0 off the input raster, else the pattern source's value (R10, R14). -/
def linIn (s : State) (u v : Nat) (c : Component) : Nat :=
  let ui := u / 16
  let vi := v / 16
  if s.settings.hdr.inW ≤ ui ∨ s.settings.hdr.inH ≤ vi then 0
  else match s.patternSource with
    | .input => inputSample s u v c
    | .flat => s.flatLevel
    | .grid => if ui % 64 < 2 ∨ vi % 64 < 2 then 65535 else 0
    | .zonemap => 65535

/-! ### Step 3: the blend field and the weight (R15 to R19) -/

/-- A blend entry's word: the zone index in bits 15 to 13 and t below them, 0xFFFF absent (R15, R167). -/
def blendEntry (w : Nat) : Option (Nat × Nat) := if w = 65535 then none else some (w / 8192 % 8, w % 8192)

/-- Whether blend entries that name the zone are used: it is enabled and not in WAIT (R15). -/
def Zone.used (z : Zone) : Bool := z.enabled && z.state != .wait

/-- The t of a node's entry for a zone index; entry A before entry B (R15). -/
def Node.entryFor (n : Node) (z : Nat) : Option Nat :=
  match blendEntry n.entryA with
  | some (a, t) => if a = z then some t else
      match blendEntry n.entryB with
      | some (b, t') => if b = z then some t' else none
      | none => none
  | none =>
    match blendEntry n.entryB with
    | some (b, t') => if b = z then some t' else none
    | none => none

/-- The pixel's t for zone index z, when a used entry of a corner names z: a corner without one counts
as 4096 (R16). -/
def Cell.tFor (k : Cell) (z : Nat) : Option Nat :=
  match k.n00.entryFor z, k.n10.entryFor z, k.n01.entryFor z, k.n11.entryFor z with
  | none, none, none, none => none
  | a, b, c, d => some (k.blend (a.getD 4096) (b.getD 4096) (c.getD 4096) (d.getD 4096))

/-- The pixel's t for zone z when the pixel is in that zone: the zone is used, a corner names it and t
is below 4096 (R15, R16). -/
def zoneT (s : State) (k : Cell) (z : Nat) : Option Nat :=
  if (s.zone z).used then
    match k.tFor z with
    | some t => if t < 4096 then some t else none
    | none => none
  else none

/-- The smoothed coordinate s_sm (R17). -/
def smoothed (t : Nat) : Nat := (3 * t ^ 2 * 4096 - 2 * t ^ 3) / 4096 ^ 2

/-- The shaped weight s for shape a (R17). -/
def shaped (a t : Nat) : Nat := ((16 - a) * t + a * smoothed t) / 16

/-- The zone weight wz for fill m (R18). -/
def zoneWeight (a m t : Nat) : Nat := shaped a t + m * (4096 - shaped a t) / 64

/-- The combined weight W over the zones the pixel is in, in ascending index (R19). -/
def weight (s : State) (k : Cell) : Nat :=
  (List.range 8).foldl (fun w z =>
    match zoneT s k z with
    | some t => w * zoneWeight (s.zone z).shapeInUse (s.zone z).m t / 4096
    | none => w) 4096

/-! ### Steps 4 and 5: gain and black lift (R20 to R23) -/

/-- g1: the ceiling scale, the dome level and the fade, each product floored (R20). -/
def gain1 (s : State) : Nat := s.level.sapp * s.level.dapp / 1024 * s.life.fade / 64

/-- g2: g1 with the pixel's weight (R20). -/
def gain2 (s : State) (w : Nat) : Nat := gain1 s * w / 4096

/-- lin_out (R21). -/
def linOut (lin g2 : Nat) : Nat := lin * g2 / 32768

/-- Whether zone z is in the black-lift set: enabled, its neighbour's entry LIVE and reporting a state
other than SERVICE (R48). -/
def inBlackLift (s : State) (z : Nat) : Bool :=
  (s.zone z).enabled && (s.peer (s.zone z).neighbour).state == .live
    && (s.peer (s.zone z).neighbour).reported != some .service

/-- A zone's neighbour black (R22). -/
def neighbourBlack (s : State) (z : Nat) : Nat := (s.peer (s.zone z).neighbour).black

/-- Lmax: the greatest neighbour black over the black-lift set, 0 when it is empty (R22). -/
def liftCeiling (s : State) : Nat :=
  (List.range 8).foldl (fun l z => if inBlackLift s z then max l (neighbourBlack s z) else l) 0

/-- The sum of the neighbour blacks over the members that contain the pixel (R23). -/
def blackSum (s : State) (k : Cell) : Nat :=
  (List.range 8).foldl (fun b z =>
    if inBlackLift s z && (zoneT s k z).isSome then b + neighbourBlack s z else b) 0

/-- L_eff (R23). -/
def lift (s : State) (k : Cell) : Nat := (liftCeiling s - blackSum s k) * s.life.fade / 64

/-- lin2 (R23). -/
def lin2 (out l : Nat) : Nat := min 65535 (out + l)

/-! ### Step 6: encode and dither (R24 to R26) -/

/-- The encode table's entry for a linear light, its low 12 bits (R24). -/
def encoded (s : State) (l : Nat) : Nat := s.settings.encode.getD (l / 16) 0 % 4096

/-- The dither matrix M (R26). -/
def ditherMatrix (a b : Nat) : Nat :=
  if a = 0 then (if b = 0 then 0 else 3) else (if b = 0 then 2 else 1)

/-- The dither offset d of the pixel at (x, y) under the raster phase (R26). -/
def ditherOffset (e : Encoder) (x y : Nat) : Nat :=
  ditherMatrix ((x + e.phaseX) % 2) ((y + e.phaseY) % 2)

/-- The output code (R26). -/
def outCode (e d : Nat) : Nat := min 1023 ((e + d) / 4)

/-- The raster phase of a dither mode at frame number f (R25). -/
def rasterPhase (mode : DitherMode) (f : FrameNo) : Nat × Nat :=
  match mode, f.toNat % 4 with
  | .still, _ => (0, 0)
  | .alternate, 1 => (1, 1)
  | .alternate, 3 => (1, 1)
  | .alternate, _ => (0, 0)
  | .rotate, 1 => (1, 0)
  | .rotate, 2 => (1, 1)
  | .rotate, 3 => (0, 1)
  | .rotate, _ => (0, 0)
  | .swap, 1 => (0, 1)
  | .swap, 3 => (0, 1)
  | .swap, _ => (0, 0)

/-! ### The pixel (R4 to R6) -/

/-- Code 0 on every component. -/
def black : Rgb := { red := 0, green := 0, blue := 0 }

/-- The service raster's pixel (R6). -/
def servicePixel (s : State) (x y : Nat) : Rgb :=
  if x % 64 < 2 ∨ y % 64 < 2 ∨ x + 1 = s.settings.hdr.outW ∨ y + 1 = s.settings.hdr.outH then
    { red := 1023, green := 1023, blue := 1023 }
  else black

/-- Steps 2 to 6 for one component of a pixel whose cell is not void (R3). -/
def componentCode (s : State) (x y : Nat) (k : Cell) (c : Component) : Nat :=
  let out := linOut (linIn s k.sourceU k.sourceV c) (gain2 s (weight s k))
  outCode (encoded s (lin2 out (lift s k))) (ditherOffset s.encoder x y)

/-- The code of the pixel at logical position (x, y): the four outcomes in R4's order. -/
def pixelCode (s : State) (x y : Nat) : Rgb :=
  if s.life.state = .service then servicePixel s x y
  else if s.life.fade = 0 then black
  else
    let k := cellAt s x y
    if k.anyVoid then black
    else { red := componentCode s x y k .red, green := componentCode s x y k .green,
           blue := componentCode s x y k .blue }

/-! ### The order of the pixels (R27) -/

/-- The number of positions of a raster: Wout x Hout (R1). -/
def rasterSize (s : State) : Nat := s.settings.hdr.outW * s.settings.hdr.outH

/-- The logical position of the p-th pixel on the link, by the orientation straps (R27). -/
def logicalPosition (s : State) (p : Nat) : Nat × Nat :=
  let w := s.settings.hdr.outW
  let h := s.settings.hdr.outH
  let x := p % w
  let y := p / w
  (if s.straps.mirx then w - 1 - x else x, if s.straps.flipy then h - 1 - y else y)

/-- The code sent at the p-th place of the link. -/
def linkCode (s : State) (p : Nat) : Rgb := pixelCode s (logicalPosition s p).1 (logicalPosition s p).2

end Sys2Proof.Machine
end

