-- ==== Sys2Proof/Machine/Emission.lean ====
section
/-! DEFINITION. What leaves on the output link as the model's clock runs, and the raster at a mark (R1, R151
to R153). -/

namespace Sys2Proof.Machine

/-- How many positions of a raster begun at `began` have been due before time t: one every 2 ns from
the mark on (R151, assumption 12). -/
def positionsDue (size : Nat) (began t : Nat) : Nat := min size ((t - began + 1) / 2)

/-- The codes of n positions of the raster from place p on, each computed when it is due from the state
as it stands (R1, R2). -/
def linkCodes (s : State) (p n : Nat) : List Rgb := (List.range' p n).map (linkCode s)

/-- Send the positions due before time t; when the last pixel has left by then, close the raster with
its frame end (R151). A mark at the very instant at which the raster ends finds it closed, and counts no CUT:
R152 speaks of shorter and longer rasters alone (assumption 12, DESIGN CHOICE). -/
def emitUntil (s : State) (t : Nat) : State :=
  match s.encoder.raster with
  | none => s
  | some r =>
    let size := rasterSize s
    let upTo := max r.next (positionsDue size r.began t)
    let sent := s.encoder.sent ++ linkCodes s r.next (upTo - r.next)
    if r.began + 2 * size ≤ t then
      s.setEncoder { s.encoder with raster := none, sent := [], closed := sent }
    else
      s.setEncoder { s.encoder with raster := some { r with next := upTo }, sent := sent }

/-- A mark finds a raster in flight: the positions not yet sent are sent as code 0, the raster is closed
and CUT is counted (R153). They take no time on the link, and the new raster is timed from the mark: R153
gives them no length (assumption 12, DESIGN CHOICE). -/
def cutRaster (s : State) : State :=
  match s.encoder.raster with
  | none => s
  | some r =>
    (s.setEncoder { s.encoder with
      raster := none, sent := [],
      closed := s.encoder.sent ++ List.replicate (rasterSize s - r.next) black }).count .cut

/-- A mark begins a raster and fixes its raster phase from the dither mode and the frame number (R25,
R151). -/
def beginRaster (s : State) : State :=
  let phase := rasterPhase s.settings.hdr.dither s.timer.number
  s.setEncoder { s.encoder with
    raster := some { began := s.now, next := 0 }, phaseX := phase.1, phaseY := phase.2, sent := [] }

end Sys2Proof.Machine
end

