-- ==== Sys2Proof/Machine/Operands.lean ====
section
/-! DEFINITION. What crosses the bus: characters, kinds, codes, payload layouts and the check character
(R104 to R109, R178), read and built. -/

namespace Sys2Proof.Machine

/-! ### Characters (R104) -/

/-- What a character carries: its data, its mark bit and its stop bit. A stop bit that reads 0 (false) is a
framing error. -/
structure Character where
  stop : Bool
  mark : Bool
  data : Byte
  deriving DecidableEq, Repr

/-- The eleven bits of a character: the start bit 0, the data with its least significant bit first, the
mark bit, the stop bit (R104). -/
def Character.bits (ch : Character) : CharacterBits :=
  BitVec.ofBool ch.stop ++ BitVec.ofBool ch.mark ++ ch.data ++ 0#1

/-- The character that the receiver reads from eleven bits; there is none without a start bit, by whose
falling edge a character is found (R104). -/
def readCharacter (c : CharacterBits) : Option Character :=
  if c.getLsbD 0 then none
  else some { stop := c.getLsbD 10, mark := c.getLsbD 9, data := c.extractLsb' 1 8 }

/-- The characters of a message with these data bytes: the mark bit is 1 on the lead alone (R104, R105). -/
def messageCharacters (bytes : List Byte) : List Character :=
  bytes.zipIdx.map fun b => { stop := true, mark := b.2 == 0, data := b.1 }

/-! ### Codes -/

/-- The kind code of a message (R105). -/
def MsgKind.code : MsgKind → Nat
  | .status => 0
  | .join => 1
  | .leave => 2
  | .order => 3
  | .answer => 4

/-- The kind that a kind code names; 5, 6 and 7 are unassigned (R105). -/
def msgKindOf : Nat → Option MsgKind
  | 0 => some .status
  | 1 => some .join
  | 2 => some .leave
  | 3 => some .order
  | 4 => some .answer
  | _ => none

/-- The station state codes (R107 for 0 to 5, R181 for all). -/
def StationState.code : StationState → Nat
  | .listen => 0
  | .joining => 1
  | .lit => 2
  | .leaving => 3
  | .dark => 4
  | .service => 5
  | .start => 6
  | .measure => 7
  | .sleep => 8

/-- The station state that a STATUS's state code names (R107). -/
def statusStateOf : Nat → Option StationState
  | 0 => some .listen
  | 1 => some .joining
  | 2 => some .lit
  | 3 => some .leaving
  | 4 => some .dark
  | 5 => some .service
  | _ => none

/-- The reason codes (R108). -/
def Reason.code : Reason → Nat
  | .start => 0
  | .rejoin => 1
  | .lampLow => 2
  | .thermal => 3
  | .input => 4
  | .hold => 5
  | .sleep => 6

/-- The handover kind codes of a STATUS and of READ: 0 none, 1 join, 2 leave (R107). -/
def handoverCode : Option HandoverKind → Nat
  | none => 0
  | some .join => 1
  | some .leave => 2

/-- The handover kind that a code names; none of the outer kind for a code above 2 (R107). -/
def handoverKindOf : Nat → Option (Option HandoverKind)
  | 0 => some none
  | 1 => some (some .join)
  | 2 => some (some .leave)
  | _ => none

/-- The fault kind codes (R185). -/
def FaultKind.code : FaultKind → Nat
  | .lineStuck => 0
  | .lampLow => 1
  | .thermal => 2
  | .inputLost => 3
  | .busAbandon => 4
  | .rxOverflow => 5
  | .answerOverflow => 6
  | .shapeMismatch => 7
  | .duplicateStation => 8
  | .imageCheck => 9
  | .zoneConfig => 10

/-! ### The check character (R106) -/

/-- One shift of the CRC register: x^8 + x^5 + x^4 + 1, most significant bit first. -/
def crcShift (r : Byte) : Byte := if r.msb then (r <<< 1) ^^^ 0x31 else r <<< 1

/-- One byte into the CRC register. -/
def crcByte (r b : Byte) : Byte := (List.range 8).foldl (fun acc _ => crcShift acc) (r ^^^ b)

/-- The CRC-8 over bytes, preset to 0xFF, with no final inversion. -/
def crc8 (bs : List Byte) : Byte := bs.foldl crcByte 0xFF

/-- The lead character's data: the kind in bits 7 to 5, the sender in bits 4 to 0 (R105). -/
def leadByte (kind : MsgKind) (sender : Nat) : Byte := BitVec.ofNat 8 (kind.code * 32 + sender)

/-- The data bytes of a whole message: lead, length, payload, check (R105). -/
def messageBytes (kind : MsgKind) (sender : Nat) (payload : List Byte) : List Byte :=
  let body := leadByte kind sender :: BitVec.ofNat 8 payload.length :: payload
  body ++ [crc8 body]

/-! ### STATUS (R107) -/

/-- The contents of a STATUS as received. -/
structure StatusBody where
  frame : FrameNo
  state : StationState
  capacity : Nat
  black : Nat
  conditions : ConditionFlags
  handover : Option PeerHandover
  levelRecord : LevelRecord
  zoneList : List (Nat × Nat)
  deriving DecidableEq, Repr

/-- The condition flags of a flags byte; bits 4 to 7 are ignored (R107). -/
def conditionsOf (n : Nat) : ConditionFlags :=
  { lampLow := bitOf n 0, thermal := bitOf n 1, inputLost := bitOf n 2, lineStuck := bitOf n 3 }

/-- The condition flags as a byte (R107). -/
def ConditionFlags.toNat (c : ConditionFlags) : Nat :=
  bit c.lampLow 0 + bit c.thermal 1 + bit c.inputLost 2 + bit c.lineStuck 3

/-- The zone pairs of a STATUS, in the order carried (R107). -/
def zonePairs (p : List Byte) (n : Nat) : List (Nat × Nat) :=
  (List.range n).map fun i => (byteAt p (23 + 2 * i), byteAt p (24 + 2 * i))

/-- A STATUS payload read by its layout, or none when R89 has it dropped: a state code above 5, a
handover kind above 2, a zone count above 8, or a length other than 23 + 2n. The capacity and black are
clamped to 4095 and a ramp code above 6 is taken as 6 (R90). -/
def readStatus (p : List Byte) : Option StatusBody :=
  let n := byteAt p 22
  if p.length = 23 + 2 * n ∧ n ≤ 8 then
    match statusStateOf (byteAt p 2), handoverKindOf (byteAt p 8) with
    | some st, some kind =>
      some {
        frame := BitVec.ofNat 16 (wordAt p 0)
        state := st
        capacity := min 4095 (wordAt p 3)
        black := min 4095 (wordAt p 5)
        conditions := conditionsOf (byteAt p 7)
        handover := kind.map fun k =>
          { kind := k, start := BitVec.ofNat 16 (wordAt p 9), code := min 6 (byteAt p 11) }
        levelRecord := {
          serial := BitVec.ofNat 16 (wordAt p 12), startLevel := wordAt p 14, target := wordAt p 16,
          start := BitVec.ofNat 16 (wordAt p 18), ramp := wordAt p 20 }
        zoneList := zonePairs p n }
    | _, _ => none
  else none

/-! ### JOIN and LEAVE (R108) -/

/-- The contents of a JOIN or LEAVE as received; the reason is read and not kept (R91). -/
structure NoticeBody where
  frame : FrameNo
  start : FrameNo
  code : Nat
  capacity : Nat
  deriving DecidableEq, Repr

/-- A JOIN or LEAVE payload, or none when its length is not 8 (R89). -/
def readNotice (p : List Byte) : Option NoticeBody :=
  if p.length = 8 then
    some { frame := BitVec.ofNat 16 (wordAt p 0), start := BitVec.ofNat 16 (wordAt p 2),
           code := min 6 (byteAt p 4), capacity := min 4095 (wordAt p 6) }
  else none

/-! ### ORDER and ANSWER (R109, R178) -/

/-- An order: its serial, addressing, code and arguments. -/
structure Order where
  serial : FrameNo
  target : Nat
  mask : Nat
  code : Nat
  args : List Byte
  deriving DecidableEq, Repr

/-- An ORDER payload, or none when it is shorter than 5 bytes. Only the low five bits of the target and
of the mask are used (R178). -/
def readOrder (p : List Byte) : Option Order :=
  if p.length < 5 then none
  else some { serial := BitVec.ofNat 16 (wordAt p 0), target := byteAt p 2 % 32, mask := byteAt p 3 % 32,
              code := byteAt p 4, args := p.drop 5 }

/-- Whether a station of number n is addressed: ((n xor target) and mask) is 0 (R179). -/
def Order.addresses (o : Order) (n : Nat) : Bool := (n ^^^ o.target) &&& o.mask == 0

/-- The number of argument bytes of an order code (R178). -/
def argumentBytes : Nat → Nat
  | 1 => 7
  | 4 => 3
  | 5 => 2
  | 7 => 34
  | _ => 0

/-- The result codes (R178). -/
inductive OrderResult where
  | done | busy | locked | badArg | notNow | unknown
  deriving DecidableEq, Repr

/-- A result's code (R178). -/
def OrderResult.code : OrderResult → Nat
  | .done => 0
  | .busy => 1
  | .locked => 2
  | .badArg => 3
  | .notNow => 4
  | .unknown => 5

/-- An answer record's payload (R109). -/
def AnswerRecord.payload (a : AnswerRecord) : List Byte :=
  bytes2 a.serial.toNat ++ byte1 a.code ++ byte1 a.result ++ a.bytes

end Sys2Proof.Machine
end

