-- ==== Sys2Proof/Machine/Flags.lean ====
section
/-! DEFINITION. The flags: wanted flags and what is sendable, the cause set and the lighting condition,
the condition flags of a STATUS. -/

namespace Sys2Proof.Machine

/-! ### Wanted flags and the transmitter's readiness (R102, R115, R118) -/

/-- STATUS-wanted is set (R99). -/
def State.wantStatus (s : State) : State := s.setBus { s.bus with statusWanted := true }

/-- Creating the own handover record sets handover-wanted and STATUS-wanted (R58). -/
def State.wantHandover (s : State) : State :=
  s.setBus { s.bus with handoverWanted := true, statusWanted := true }

/-- Removing the own handover record clears handover-wanted and sets STATUS-wanted (R59). -/
def State.dropHandoverWanted (s : State) : State :=
  s.setBus { s.bus with handoverWanted := false, statusWanted := true }

/-- A STATUS may leave the station in this state (R102). -/
def StationState.sendsStatus : StationState → Bool
  | .listen | .joining | .lit | .leaving | .dark | .service => true
  | .start | .measure | .sleep => false

/-- A JOIN or LEAVE may leave the station in this state (R102). -/
def StationState.sendsNotice : StationState → Bool
  | .joining | .leaving => true
  | .start | .measure | .listen | .lit | .dark | .service | .sleep => false

/-- An ANSWER may leave the station in this state (R102). -/
def StationState.sendsAnswer : StationState → Bool
  | .listen | .joining | .lit | .leaving | .dark | .service | .sleep => true
  | .start | .measure => false

/-- The handover notice is sendable (R115). -/
def State.noticeSendable (s : State) : Bool :=
  s.stn != 0 && s.bus.handoverWanted && s.life.state.sendsNotice && s.life.handover.isSome

/-- The oldest answer is sendable (R115). -/
def State.answerSendable (s : State) : Bool :=
  s.stn != 0 && !s.bus.answers.isEmpty && s.life.state.sendsAnswer

/-- The STATUS is sendable (R115). -/
def State.statusSendable (s : State) : Bool :=
  s.stn != 0 && s.bus.statusWanted && s.life.state.sendsStatus

/-- Some item is sendable (R115). -/
def State.anySendable (s : State) : Bool := s.noticeSendable || s.answerSendable || s.statusSendable

/-- The back-off that remains at time `now`: each whole bit time of idle line in BACKOFF has taken one
(R118). -/
def Bus.backoffLeft (b : Bus) (now bitTime : Nat) : Nat :=
  match b.txState with
  | .backoff => b.backoff - (now - b.txSince) / bitTime
  | .idle | .gap | .lead | .sending => b.backoff

/-- The transmitter's moves that need no event of the line: IDLE to GAP when an item becomes sendable,
and back to IDLE, the driver disabled and the back-off kept, when none is any longer (R118,
assumption 16). -/
def refreshTx (s : State) : State :=
  match s.bus.txState with
  | .idle => if s.anySendable then s.setBus { s.bus with txState := .gap, txSince := s.now } else s
  | .sending => s
  | .gap | .backoff | .lead =>
    if s.anySendable then s
    else s.setBus { s.bus with
      txState := .idle, txSince := s.now, backoff := s.bus.backoffLeft s.now s.bitTime }

/-- Whether the bus driver is enabled: in LEAD and SENDING (R118). -/
def State.driverEnabled (s : State) : Bool :=
  match s.bus.txState with
  | .lead | .sending => true
  | .idle | .gap | .backoff => false

/-! ### Causes and lighting (R55, R57) -/

/-- Whether a cause is a member of the set. -/
def CauseSet.has (c : CauseSet) : Cause → Bool
  | .lampLow => c.lampLow
  | .thermal => c.thermal
  | .input => c.input
  | .hold => c.hold

/-- Add a member to the set or remove it. -/
def CauseSet.put (c : CauseSet) (v : Bool) : Cause → CauseSet
  | .lampLow => { c with lampLow := v }
  | .thermal => { c with thermal := v }
  | .input => { c with input := v }
  | .hold => { c with hold := v }

/-- The reason of a handover record made for an appearing cause (R58). -/
def Cause.reason : Cause → Reason
  | .lampLow => .lampLow
  | .thermal => .thermal
  | .input => .input
  | .hold => .hold

/-- Some buffer is READY or SHOWN (R57, R146). -/
def anyReadyOrShown (bs : List FrameBuffer) : Bool :=
  bs.any fun b => b.state == .ready || b.state == .shown

/-- The lighting condition (R57). With the pattern source other than INPUT no buffer is needed (R13), also in a station
that no frame has reached, of which R148 says that in LISTEN the condition is not allowed in any case (assumption 36,
DESIGN CHOICE). -/
def lightingAllowed (s : State) : Bool :=
  s.life.causes == .empty && (anyReadyOrShown s.buffers || s.patternSource != .input)

/-- The condition flags of the own STATUS: the live causes and the line state (R100). -/
def ownConditions (s : State) : ConditionFlags :=
  { lampLow := s.life.causes.lampLow, thermal := s.life.causes.thermal, inputLost := s.life.causes.input,
    lineStuck := s.timer.lineState == .stuck }

end Sys2Proof.Machine
end

