-- ==== Sys2Proof/Machine/Zones.lean ====
section
/-! DEFINITION. The Zone Controller: targets taken from neighbours, the fill ramps, shape agreement
(R28 to R48). -/

namespace Sys2Proof.Machine

/-- What a neighbour's entry asks of a zone (R34). -/
inductive Target where
  | shared
  | ramp (up : Bool) (start : FrameNo) (step : Nat)
  | loss
  | unchanged
  deriving DecidableEq, Repr

/-- The target of a zone from its neighbour's entry (R34). -/
def targetOf (e : PeerEntry) : Target :=
  match e.state with
  | .lost | .absent => .loss
  | .live =>
    match e.reported, e.handover with
    | some .lit, _ => .shared
    | some .joining, some h =>
      if h.kind = .join then .ramp false h.start (rampStep h.code) else .unchanged
    | some .leaving, some h =>
      if h.kind = .leave then .ramp true h.start (rampStep h.code) else .unchanged
    | some .listen, _ | some .dark, _ | some .service, _ => .loss
    | _, _ => .unchanged

/-- A zone's ramp evaluated at frame number f, with the end tests (R36, R37). -/
def Zone.evaluate (z : Zone) (f : FrameNo) : Zone :=
  match z.ramp with
  | none => z
  | some r =>
    let m := r.value f
    match z.state with
    | .filling => if m = 64 then { z with state := .solo, ramp := none, m := 64 } else { z with m := m }
    | .yielding => if m = 0 then { z with state := .shared, ramp := none, m := 0 } else { z with m := m }
    | .wait | .shared | .solo => { z with m := m }

/-- A ramp record is set in a zone: it takes the state of the direction and is evaluated at once (R37,
R40). -/
def Zone.setRamp (z : Zone) (f : FrameNo) (r : RampRecord) : Zone :=
  Zone.evaluate { z with ramp := some r, state := if r.up then .filling else .yielding } f

/-- A target of SHARED (R39). -/
def Zone.toShared (z : Zone) : Zone :=
  match z.state with
  | .filling | .solo => { z with state := .shared, ramp := none, m := 0 }
  | .wait | .shared | .yielding => z

/-- A target of a ramp (R40): ignored when the zone holds the same record but for its base; else a new
record whose base is the old record's value at N - 1, or the current m. -/
def Zone.toRamp (z : Zone) (f : FrameNo) (up : Bool) (start : FrameNo) (step : Nat) : Zone :=
  match z.ramp with
  | some r =>
    if r.up = up ∧ r.start = start ∧ r.step = step then z
    else z.setRamp f { base := r.value (start - 1), start := start, step := step, up := up }
  | none => z.setRamp f { base := z.m, start := start, step := step, up := up }

/-- A target of SOLO by loss (R41): the loss ramp starts at f + 1. -/
def Zone.toLoss (z : Zone) (f : FrameNo) (step : Nat) : Zone :=
  match z.state with
  | .shared => z.setRamp f { base := 0, start := f + 1, step := step, up := true }
  | .yielding =>
    match z.ramp with
    | some r => z.setRamp f { base := r.value f, start := f + 1, step := step, up := true }
    | none => z.setRamp f { base := z.m, start := f + 1, step := step, up := true }
  | .wait | .filling | .solo => z

/-- A target applied to a zone in its present state; a zone in WAIT takes none (R31, R33). -/
def Zone.apply (z : Zone) (f : FrameNo) (lossStep : Nat) (t : Target) : Zone :=
  if z.state = .wait then z
  else match t with
    | .shared => z.toShared
    | .ramp up start step => z.toRamp f up start step
    | .loss => z.toLoss f lossStep
    | .unchanged => z

/-- A zone in WAIT set from its neighbour's entry at the own entry to JOINING (R32). -/
def Zone.enter (z : Zone) (f : FrameNo) (t : Target) : Zone :=
  match t with
  | .shared => { z with state := .shared, ramp := none, m := 0 }
  | .ramp up start step => z.setRamp f { base := 64, start := start, step := step, up := up }
  | .loss | .unchanged => { z with state := .solo, ramp := none, m := 64 }

/-- A zone put in WAIT (R31). -/
def Zone.toWait (z : Zone) : Zone := { z with state := .wait, ramp := none, m := 64 }

/-- Apply a change to the enabled zones only. -/
def Zone.ifEnabled (f : Zone → Zone) (z : Zone) : Zone := if z.enabled then f z else z

/-- The step of the loss ramp, from the image's code (R34). -/
def State.lossStep (s : State) : Nat := rampStep s.settings.hdr.lossCode

/-- Entry n was touched: while the own station is in the sky, the target of each enabled zone naming n
is recomputed and applied (R33). -/
def touchZones (n : Nat) (s : State) : State :=
  if s.life.state.inSky then
    s.setZones (s.zones.map (Zone.ifEnabled fun z =>
      if z.neighbour = n then z.apply s.timer.number s.lossStep (targetOf (s.peer n)) else z))
  else s

/-- The own entry to JOINING sets every enabled zone from its neighbour's entry (R32). -/
def zonesAtJoining (s : State) : State :=
  s.setZones (s.zones.map (Zone.ifEnabled fun z =>
    z.enter s.timer.number (targetOf (s.peer z.neighbour))))

/-- Entry to DARK or SLEEP puts every enabled zone in WAIT (R31). -/
def zonesToWait (s : State) : State := s.setZones (s.zones.map (Zone.ifEnabled Zone.toWait))

/-- The Zone Controller's work at a mark: ramps evaluated, agreed shapes copied into use (R36, R47). -/
def zonesAtMark (s : State) : State :=
  s.setZones (s.zones.map fun z =>
    let e := z.evaluate s.timer.number
    { e with shapeInUse := e.agreedShape })

/-! ### Shape agreement (R45, R46) -/

/-- The check of a zone against a neighbour's zone list (R45); `own` is the own station number. -/
def Zone.checkShape (z : Zone) (own : Nat) (pairs : List (Nat × Nat)) : Zone :=
  match pairs.find? (fun p => p.1 == own) with
  | none => { z with agreedShape := z.configuredShape, mismatch := false, oneSided := true }
  | some p =>
    let shape := min 16 p.2
    if shape = z.configuredShape then
      { z with agreedShape := z.configuredShape, mismatch := false, oneSided := false }
    else
      { z with agreedShape := if own < z.neighbour then z.configuredShape else shape,
               mismatch := true, oneSided := false }

/-- Zone i checked after a STATUS from n: a change of the mismatch flag sets STATUS-wanted, and a flag
newly set reports SHAPE_MISMATCH (R46). -/
def checkZone (n : Nat) (s : State) (i : Nat) : State :=
  let z := s.zone i
  if z.enabled && z.neighbour == n then
    let z' := z.checkShape s.stn (s.peer n).zoneList
    let s := s.setZones (modifyAt (fun _ => z') i s.zones)
    if z'.mismatch = z.mismatch then s
    else if z'.mismatch then (s.report .shapeMismatch i).wantStatus
    else s.wantStatus
  else s

/-- Shape agreement after a STATUS from n, in ascending zone index (R45). -/
def shapeAgreement (n : Nat) (s : State) : State := (List.range 8).foldl (checkZone n) s

/-- The zone list of the own STATUS: the enabled zones' neighbours and configured shapes, in ascending
index (R44). -/
def ownZoneList (s : State) : List (Nat × Nat) :=
  (s.zones.filter (·.enabled)).map fun z => (z.neighbour, z.configuredShape)

end Sys2Proof.Machine
end

