-- ==== Sys2Proof/Machine/LevelControl.lean ====
section
/-! DEFINITION. The Level Controller: reported capacity, the ceiling and its slew, the level record
(R73 to R86). -/

namespace Sys2Proof.Machine

/-! ### The ceiling (R74 to R78) -/

/-- Whether a peer is in the ceiling set (R75). -/
def PeerEntry.inCeiling (e : PeerEntry) (floor : Nat) : Bool :=
  e.state == .live && (e.reported.map StationState.inSky).getD false && decide (floor ≤ e.capacity)

/-- C_dome: the least of C_own and the capacities of the peers in the ceiling set (R76). -/
def domeCapacity (own floor : Nat) (peers : List PeerEntry) : Nat :=
  peers.foldl (fun c e => if e.inCeiling floor then min c e.capacity else c) own

/-- The scale target (R76). -/
def scaleTargetOf (own floor : Nat) (peers : List PeerEntry) : Nat :=
  if own < floor ∨ own = 0 then 32768 else 32768 * domeCapacity own floor peers / own

/-- The scale target is recomputed from C_own and the peer table as they stand (R77). -/
def recomputeTarget (s : State) : State :=
  s.setLevel { s.level with
    scaleTarget := scaleTargetOf s.level.capacity s.settings.hdr.floor s.peers }

/-- C_own takes a value: a change sets STATUS-wanted and recomputes the target (R74). -/
def setCapacity (c : Nat) (s : State) : State :=
  if s.level.capacity = c then s
  else recomputeTarget ((s.setLevel { s.level with capacity := c }).wantStatus)

/-- The absolute difference of two numbers. -/
def distance (a b : Nat) : Nat := (a - b) + (b - a)

/-- A completed scan's capacity, taken when it differs from C_own by 16 or more, but not in MEASURE
(R74). -/
def offerCapacity (c : Nat) (s : State) : State :=
  if s.life.state = .measure then s
  else if 16 ≤ distance s.level.capacity c then setCapacity c s
  else s

/-- Sapp one mark on: toward the target by at most 64 (R78). -/
def slewed (sapp target : Nat) : Nat :=
  if sapp ≤ target then sapp + min 64 (target - sapp) else sapp - min 64 (sapp - target)

/-! ### The level record (R79 to R84) -/

/-- Dapp at frame number f under a record (R80): the quotient is rounded toward zero. -/
def LevelRecord.value (r : LevelRecord) (f : FrameNo) : Nat :=
  if reached f r.start then
    if r.ramp = 0 then r.target
    else
      let k := min ((f - r.start).toNat + 1) r.ramp
      ((r.startLevel : Int) + Int.tdiv (((r.target : Int) - (r.startLevel : Int)) * (k : Int)) (r.ramp : Int)).toNat
  else r.startLevel

/-- Whether the fade of a record is complete at f (R81). -/
def LevelRecord.complete (r : LevelRecord) (f : FrameNo) : Bool :=
  reached f r.start && decide (r.ramp ≤ (f - r.start).toNat + 1)

/-- A completed record's form (R81). -/
def LevelRecord.completed (r : LevelRecord) : LevelRecord := { r with startLevel := r.target, ramp := 0 }

/-- The Level Controller's work at a mark: Sapp slews, Dapp is evaluated, a completed record is rewritten
(R78, R80, R81). -/
def levelAtMark (s : State) : State :=
  let f := s.timer.number
  s.setLevel { s.level with
    sapp := slewed s.level.sapp s.level.scaleTarget
    dapp := s.level.record.value f
    record := if s.level.record.complete f then s.level.record.completed else s.level.record }

/-- The level record is replaced: STATUS-wanted is set and the level-unset flag cleared (R79, R82, R84). -/
def replaceLevel (r : LevelRecord) (s : State) : State :=
  (s.setLevel { s.level with record := r, unset := false }).wantStatus

/-- The record a LEVEL order makes; no start frame stands for "next" (R82). Its start level is R80's value of
the record in force as it stands. Where a complete record has been rewritten (R81) that is the target at every
N - 1; where it has not, it is a value of the fade at an N - 1 inside it, and the old start level at an N - 1
before its start frame or more than 32767 marks past it. R85 says that the two are the same at every N - 1, and R83
that the old fade has run on untouched (assumption 31, DESIGN CHOICE). -/
def orderedRecord (s : State) (serial : FrameNo) (target ramp : Nat) (start : Option FrameNo) :
    LevelRecord :=
  let n := start.getD (s.timer.number + BitVec.ofNat 16 s.settings.hdr.lead)
  { serial := serial, startLevel := s.level.record.value (n - 1), target := min 1024 target, start := n,
    ramp := min 1024 ramp }

/-- A carried record with its levels and ramp clamped to 1024 (R84). -/
def LevelRecord.clamped (r : LevelRecord) : LevelRecord :=
  { r with startLevel := min 1024 r.startLevel, target := min 1024 r.target, ramp := min 1024 r.ramp }

/-- A STATUS's level record: adopted while the level-unset flag is set, or when its serial is ahead
(R84). -/
def offerLevel (r : LevelRecord) (s : State) : State :=
  if s.level.unset || ahead r.serial s.level.record.serial then replaceLevel r.clamped s else s

end Sys2Proof.Machine
end

