-- ==== Sys2Proof/Machine/Lifecycle.lean ====
section
/-! DEFINITION. The Lifecycle Controller: entering each station state with what every block does at it
(R51), causes, the handover record and the fade (R50 to R72). -/

namespace Sys2Proof.Machine

/-- A change of station state: STATUS-wanted is set and the scale target recomputed (R51, R77). -/
def changeState (st : StationState) (s : State) : State :=
  recomputeTarget (s.setLife { s.life with state := st }).wantStatus

/-- The start frame of a record made now: f + L (R58). -/
def State.handoverStart (s : State) : FrameNo :=
  s.timer.number + BitVec.ofNat 16 s.settings.hdr.lead

/-- The ramp code of a record by its reason (R58). -/
def Header.rampCode (h : Header) : Reason → Nat
  | .start | .rejoin => h.joinCode
  | .lampLow | .thermal => h.faultCode
  | .input | .hold | .sleep => h.leaveCode

/-- Entry to JOINING: the JOIN record and the fade ramp are made, F is 0 and every enabled zone is set
from its neighbour (R32, R58, R60, R64). -/
def enterJoining (reason : Reason) (s : State) : State :=
  let start := s.handoverStart
  let code := s.settings.hdr.rampCode reason
  let s := s.setLife { s.life with
    state := .joining, fade := 0
    fadeRamp := some { base := 0, start := start, step := rampStep code, up := true }
    handover := some { kind := .join, start := start, code := code, reason := reason } }
  recomputeTarget (zonesAtJoining s.wantHandover)

/-- The base of a LEAVE's fade ramp: 64 from LIT, and on a reversal the old JOINING ramp's value at
N' - 1 (R60, R62). -/
def leaveBase (l : Lifecycle) (start : FrameNo) : Nat :=
  match l.state, l.fadeRamp with
  | .joining, some r => r.value (start - 1)
  | _, _ => 64

/-- Entry to LEAVING, from LIT or by reversal from JOINING: the LEAVE record replaces any JOIN record,
and the new fade ramp is evaluated at once (R58, R60, R62, R65). -/
def enterLeaving (reason : Reason) (s : State) : State :=
  let start := s.handoverStart
  let code := s.settings.hdr.rampCode reason
  let ramp : RampRecord :=
    { base := leaveBase s.life start, start := start, step := rampStep code, up := false }
  let s := s.setLife { s.life with
    state := .leaving, fade := ramp.value s.timer.number, fadeRamp := some ramp
    handover := some { kind := .leave, start := start, code := code, reason := reason } }
  recomputeTarget s.wantHandover

/-- Scanning starts, when any input is enabled (R157). -/
def startScan (s : State) : State :=
  s.setScan (if s.photo.inputs.any (·.enabled) then some (.begun s.now) else none)

/-- Entry to LISTEN, from MEASURE or by WAKE: the listen count and the STATUS schedule start and C_own
takes the Photometer's capacity (R51, R54, R74, R98). -/
def enterListen (s : State) : State :=
  let s := changeState .listen (s.setLife { s.life with listenCount := 0 })
  setCapacity s.photo.capacity (s.setSchedule { count := 0, running := true })

/-- Entry to SERVICE: the STATUS schedule starts (R51, R98). -/
def enterService (s : State) : State :=
  (changeState .service s).setSchedule { count := 0, running := true }

/-- The station is out of the sky: F is 0 and no record stands (R60). -/
def Lifecycle.outOfSky (l : Lifecycle) : Lifecycle :=
  { l with fade := 0, fadeRamp := none, handover := none }

/-- Entry to DARK: the zones go to WAIT and the dark count to 0 (R31, R67). -/
def enterDark (s : State) : State :=
  zonesToWait (changeState .dark (s.setLife { s.life.outOfSky with darkCount := 0 }))

/-- Entry to SLEEP: the zones go to WAIT, sleep-pending is cleared, the schedule stops and the scan in
progress is abandoned (R31, R70, R98, R157). -/
def enterSleep (s : State) : State :=
  let s := zonesToWait (changeState .sleep (s.setLife { s.life.outOfSky with sleepPending := false }))
  (s.setSchedule { s.schedule with running := false }).setScan none

/-- Entry to LIT: F is 64 and the records are removed (R61, R65). -/
def enterLit (s : State) : State :=
  (changeState .lit (s.setLife { s.life with fade := 64, fadeRamp := none, handover := none })).dropHandoverWanted

/-- The end of a leave: SLEEP when sleep-pending is set, otherwise DARK; the records are removed and
handover-wanted is cleared (R59, R61, R66). -/
def endLeave (s : State) : State :=
  (if s.life.sleepPending then enterSleep s else enterDark s).dropHandoverWanted

/-- A cause joins the set. In JOINING and LIT it sends the station to LEAVING; elsewhere the set only
records it. A cause already a member does not appear again (R55, R64, R65, R66). -/
def causeAppears (c : Cause) (s : State) : State :=
  if s.life.causes.has c then s
  else
    let s := s.setLife { s.life with causes := s.life.causes.put true c }
    match s.life.state with
    | .joining | .lit => enterLeaving c.reason s
    | .start | .measure | .listen | .leaving | .dark | .service | .sleep => s

/-- A cause leaves the set (R55). -/
def causeClears (c : Cause) (s : State) : State :=
  s.setLife { s.life with causes := s.life.causes.put false c }

/-- The hold-dark flag is set: HOLD appears (R55, R56). -/
def setHoldDark (s : State) : State := causeAppears .hold (s.setLife { s.life with holdDark := true })

/-- The hold-dark flag is cleared: HOLD clears (R55, R56). -/
def clearHoldDark (s : State) : State := causeClears .hold (s.setLife { s.life with holdDark := false })

/-- The SLEEP order's effect on the lifecycle by state (R69). -/
def sleepOrdered (s : State) : State :=
  match s.life.state with
  | .dark => enterSleep s
  | .joining | .lit => enterLeaving .sleep (s.setLife { s.life with sleepPending := true })
  | .leaving => s.setLife { s.life with sleepPending := true }
  | .start | .measure | .listen | .service | .sleep => s

/-- The Lifecycle Controller's work at a mark: the fade and its end test in JOINING and LEAVING, the
listen count, the dark count (R54, R61, R67). The end of the listen period and the rejoin are steps due at
the mark (assumption 3). -/
def lifeAtMark (s : State) : State :=
  match s.life.state with
  | .joining =>
    match s.life.fadeRamp with
    | some r =>
      let v := r.value s.timer.number
      if v = 64 then enterLit s else s.setLife { s.life with fade := v }
    | none => s
  | .leaving =>
    match s.life.fadeRamp with
    | some r =>
      let v := r.value s.timer.number
      if v = 0 then endLeave s else s.setLife { s.life with fade := v }
    | none => s
  | .listen => s.setLife { s.life with listenCount := satInc 65535 s.life.listenCount }
  | .dark => s.setLife { s.life with darkCount := satInc 65535 s.life.darkCount }
  | .start | .measure | .lit | .service | .sleep => s

/-- The end of the listen period: the unset flag is cleared, and the lighting condition decides between
JOINING and DARK (R54, R137). -/
def endListen (s : State) : State :=
  let s := s.setTimer { s.timer with unset := false }
  if lightingAllowed s then enterJoining .start s else enterDark s

end Sys2Proof.Machine
end

