-- ==== Sys2Proof/Machine/Peers.lean ====
section
/-! DEFINITION. The Peer Manager: applying messages, ageing, the announcement schedule (R87 to R103), and
the Frame Timer's adoption of an offered number (R138). -/

namespace Sys2Proof.Machine

/-! ### The frame number offered (R138) -/

/-- A carried frame number with its straddle tag: adopted when the tag is clear and the unset flag is set
or the number is ahead; ADOPT is counted and the unset flag cleared (R138). The test is made with the own
number as it stands, also for a carried number 32768 beyond the one before a mark, where the last row of
R139's table would have it not adopted (assumption 28, DESIGN CHOICE). -/
def offerFrame (f : FrameNo) (straddle : Bool) (s : State) : State :=
  if straddle then s
  else if s.timer.unset || ahead f s.timer.number then
    (s.setTimer { s.timer with number := f, unset := false }).count .adopt
  else s

/-! ### The entry (R90, R91) -/

/-- An entry after a STATUS (R90). -/
def PeerEntry.withStatus (e : PeerEntry) (b : StatusBody) : PeerEntry :=
  { state := .live, reported := some b.state, capacity := b.capacity, black := b.black,
    frame := b.frame, age := 0, handover := b.handover, levelCopy := some b.levelRecord,
    conditions := b.conditions, zoneList := b.zoneList, heard := satInc 65535 e.heard }

/-- The state that a JOIN or LEAVE reports (R91). -/
def HandoverKind.reports : HandoverKind → StationState
  | .join => .joining
  | .leave => .leaving

/-- An entry after a JOIN or LEAVE: the fields it does not carry are left as they stand (R91). -/
def PeerEntry.withNotice (e : PeerEntry) (kind : HandoverKind) (b : NoticeBody) : PeerEntry :=
  { e with state := .live, reported := some kind.reports, capacity := b.capacity, frame := b.frame,
           age := 0, handover := some { kind := kind, start := b.start, code := b.code },
           heard := satInc 65535 e.heard }

/-! ### Applying (R89, R92) -/

/-- A STATUS from station n applied: the entry first, then the Frame Timer, the Zone Controller and the
Level Controller are told (R90, R92; their order is assumption 11). -/
def applyStatus (n : Nat) (b : StatusBody) (straddle : Bool) (s : State) : State :=
  let s := s.setPeer n ((s.peer n).withStatus b)
  let s := offerFrame b.frame straddle s
  let s := shapeAgreement n (touchZones n s)
  offerLevel b.levelRecord (recomputeTarget s)

/-- A JOIN or LEAVE from station n applied (R91, R92). -/
def applyNotice (n : Nat) (kind : HandoverKind) (b : NoticeBody) (straddle : Bool) (s : State) : State :=
  let s := s.setPeer n ((s.peer n).withNotice kind b)
  let s := offerFrame b.frame straddle s
  recomputeTarget (touchZones n s)

/-- The head message leaves the receive queue (R114). -/
def popQueue (s : State) : State := s.setBus { s.bus with rxQueue := s.bus.rxQueue.tail }

/-- Whether a dispatched peer message is dropped without a count: in START by the Peer Manager, in SLEEP
by the Bus Controller (R89, R114). -/
def StationState.dropsPeerMessages : StationState → Bool
  | .start | .sleep => true
  | .measure | .listen | .joining | .lit | .leaving | .dark | .service => false

/-- The dispatcher hands a STATUS at the head of the queue to the Peer Manager (R89, R90, R114). -/
def dispatchStatus (s : State) : State :=
  match s.bus.rxQueue with
  | m :: _ =>
    if m.kind = .status then
      let s := popQueue s
      if s.life.state.dropsPeerMessages then s
      else match readStatus m.payload with
        | some b => applyStatus m.sender b m.straddle s
        | none => s.count .discard
    else s
  | [] => s

/-- The dispatcher hands a JOIN or LEAVE at the head of the queue to the Peer Manager (R89, R91, R114). -/
def dispatchNotice (mk : MsgKind) (kind : HandoverKind) (s : State) : State :=
  match s.bus.rxQueue with
  | m :: _ =>
    if m.kind = mk then
      let s := popQueue s
      if s.life.state.dropsPeerMessages then s
      else match readNotice m.payload with
        | some b => applyNotice m.sender kind b m.straddle s
        | none => s.count .discard
    else s
  | [] => s

/-! ### Ageing and the schedule (R93, R96, R98) -/

/-- The purge limit (R93, R94). -/
def purgeLimit : Nat := 600

/-- An entry one mark older: LIVE and LOST entries age, ABSENT ones do not (R93). -/
def PeerEntry.aged (e : PeerEntry) : PeerEntry :=
  match e.state with
  | .absent => e
  | .live | .lost => { e with age := satInc 65535 e.age }

/-- The Peer Manager's work at a mark: every entry ages, and the announcement count rises while the
schedule runs (R93, R98). Losses, purges and the announcement are steps due at the mark (assumption 3). -/
def peersAtMark (s : State) : State :=
  let s := s.setPeers (s.peers.map PeerEntry.aged)
  if s.schedule.running then s.setSchedule { s.schedule with count := s.schedule.count + 1 } else s

/-- Whether an entry is to be lost: LIVE with an age above the silence limit (R93). -/
def PeerEntry.overdue (e : PeerEntry) (silence : Nat) : Bool :=
  e.state == .live && decide (silence < e.age)

/-- Whether an entry is to be purged: LOST with an age above 600 (R93). -/
def PeerEntry.purgeable (e : PeerEntry) : Bool := e.state == .lost && decide (purgeLimit < e.age)

/-- The Zone and Level Controllers are told that entry n changed as it aged (R93). -/
def entryAged (n : Nat) (s : State) : State := recomputeTarget (touchZones n s)

/-- An overdue entry becomes LOST (R93). -/
def losePeer (n : Nat) (s : State) : State :=
  if (s.peer n).overdue s.settings.hdr.silence then
    entryAged n (s.setPeer n { s.peer n with state := .lost })
  else s

/-- A purgeable entry becomes ABSENT and is cleared (R93). -/
def purgePeer (n : Nat) (s : State) : State :=
  if (s.peer n).purgeable then entryAged n (s.setPeer n .cleared) else s

/-- The announcement is due: STATUS-wanted is set and the count returns to 0 (R98). -/
def announce (s : State) : State := (s.setSchedule { s.schedule with count := 0 }).wantStatus

/-- The WAKE order's clearing of the table, told as one change (R96). -/
def clearPeers (s : State) : State := recomputeTarget (s.setPeers clearedPeers)

end Sys2Proof.Machine
end

