-- ==== Sys2Proof/Machine/InputPort.lean ====
section
/-! DEFINITION. The Input Port and the Presenter: link events, the three buffers, the choice at the mark,
input loss and the hold counter (R141 to R150). -/

namespace Sys2Proof.Machine

/-! ### Buffers (R143, R145 to R147) -/

/-- The index of the READY buffer that no other READY one betters, from index i on; `better a b` is
asked of sequences. Of two sequences 32768 apart, and of two equal ones, neither is ahead, and the lower index is
taken, as the newest and as the older one alike (assumption 28, DESIGN CHOICE). -/
def pickReady (better : FrameNo → FrameNo → Bool) : List FrameBuffer → Nat → Option (Nat × FrameNo)
  | [], _ => none
  | b :: bs, i =>
    match pickReady better bs (i + 1) with
    | none => if b.state = .ready then some (i, b.sequence) else none
    | some (j, q) =>
      if b.state = .ready ∧ better q b.sequence = false then some (i, b.sequence) else some (j, q)

/-- The newest READY buffer: its sequence is ahead of the other's (R143, R147). -/
def newestReady (bs : List FrameBuffer) : Option Nat := (pickReady ahead bs 0).map (·.1)

/-- The older of the READY buffers (R143, R145). -/
def oldestReady (bs : List FrameBuffer) : Option Nat :=
  (pickReady (fun a b => ahead b a) bs 0).map (·.1)

/-- The number of buffers in a state. -/
def buffersIn (st : BufferState) (bs : List FrameBuffer) : Nat := bs.countP (fun b => b.state == st)

/-- A buffer record changes state. -/
def State.setBufferState (s : State) (i : Nat) (st : BufferState) : State :=
  s.setBuffers (modifyAt (fun b => { b with state := st }) i s.buffers)

/-- A buffer given to a new frame: FILLING, with the frame's sequence (R143). -/
def State.giveBuffer (s : State) (i : Nat) (seq : FrameNo) : State :=
  (s.setBuffers (modifyAt (fun b => { b with state := .filling, sequence := seq }) i s.buffers)).setInput
    { s.input with frame := some { buffer := i, sequence := seq, lines := 0, short := false } }

/-- One buffer at the Presenter's choice, when buffer `newest` is to be shown (R147). -/
def FrameBuffer.chosen (newest i : Nat) (b : FrameBuffer) : FrameBuffer :=
  if i = newest then { b with state := .shown }
  else match b.state with
    | .shown | .ready => { b with state := .free }
    | .free | .filling => b

/-- The Presenter's choice at a mark (R147). -/
def presenterChoice (s : State) : State :=
  match newestReady s.buffers with
  | some i =>
    let s' := s.setBuffers (s.buffers.zipIdx.map fun p => p.1.chosen i p.2)
    if buffersIn .ready s.buffers ≥ 2 then s'.count .drop else s'
  | none => if buffersIn .shown s.buffers ≥ 1 then s.count .repeated else s

/-! ### Link events (R141, R143 to R145) -/

/-- The link is taken: in every state but START, and only when an input raster is set (R141). -/
def State.takesLink (s : State) : Bool := s.life.state != .start && s.settings.hasInput

/-- The loss time, 3 x P (R148). -/
def State.lossTime (s : State) : Nat := 3 * s.periodNs

/-- A frame start (R143). -/
def takeFrameStart (s : State) : State :=
  let seq := s.input.startedFrames + 1
  let s := s.setInput { s.input with
    startedFrames := seq, lossDeadline := some (s.now + s.lossTime) }
  match s.input.frame with
  | some fr => (s.count .trunc).giveBuffer fr.buffer seq
  | none =>
    match s.buffers.findIdx? (fun b => b.state == .free) with
    | some i => s.giveBuffer i seq
    | none =>
      match oldestReady s.buffers with
      | some i => (s.count .drop).giveBuffer i seq
      | none => s

/-- A line: its first Win pixels go to the row `lines received` of the frame's buffer (R144). -/
def takeLine (pixels : List Pixel) (s : State) : State :=
  match s.input.frame with
  | none => s
  | some fr =>
    let h := s.settings.hdr
    if fr.lines < h.inH then
      let s := s.setBuffers (modifyAt
        (fun b => { b with rows := writeRow b.rows fr.lines (pixels.take h.inW) }) fr.buffer s.buffers)
      s.setInput { s.input with frame := some { fr with
        lines := fr.lines + 1, short := fr.short || decide (pixels.length < h.inW) } }
    else s

/-- A frame in progress is truncated: its buffer becomes FREE and TRUNC is counted (R145, R148). -/
def truncateFrame (s : State) : State :=
  match s.input.frame with
  | none => s
  | some fr =>
    ((s.setBufferState fr.buffer .free).setInput { s.input with frame := none }).count .trunc

/-- A complete frame: its buffer becomes READY, the older of two others is given up, and the input
receives (R145). -/
def completeFrame (fr : InputFrame) (s : State) : State :=
  let s :=
    if buffersIn .ready s.buffers ≥ 2 then
      match oldestReady s.buffers with
      | some i => (s.setBufferState i .free).count .drop
      | none => s
    else s
  let s := s.setBuffers (modifyAt
    (fun b => { b with state := .ready, sequence := fr.sequence }) fr.buffer s.buffers)
  causeClears .input (s.setInput { s.input with link := .receiving, frame := none, hold := 0 })

/-- A frame end (R145). -/
def takeFrameEnd (s : State) : State :=
  match s.input.frame with
  | none => s
  | some fr =>
    if fr.lines = s.settings.hdr.inH ∧ fr.short = false then completeFrame fr s else truncateFrame s

/-! ### Input loss (R148, R149) -/

/-- The loss timer expires (R148). -/
def loseInput (s : State) : State :=
  let s := s.setInput { s.input with
    lossDeadline := none
    link := .lost
    hold := if s.input.link = .lost then s.input.hold else 0 }
  truncateFrame s

/-- The Input Port's work at a mark: the hold counter rises while the link is LOST (R149). -/
def inputAtMark (s : State) : State :=
  if s.input.link = .lost then s.setInput { s.input with hold := satInc 256 s.input.hold } else s

/-- The test of the hold counter made at a mark: INPUT is raised and INPUT_LOST reported (R149). -/
def holdTest (s : State) : State :=
  if s.input.link = .lost ∧ s.settings.hdr.holdLimit < s.input.hold ∧ s.patternSource = .input
      ∧ s.life.causes.input = false then
    causeAppears .input (s.report .inputLost s.settings.hdr.holdLimit)
  else s

end Sys2Proof.Machine
end

