-- ==== Sys2Proof/Machine/Photometry.lean ====
section
/-! DEFINITION. The Photometer: scans, capacity, the black code and the two streaks (R154 to R163). -/

namespace Sys2Proof.Machine

/-- An input record by its number: 0 LAMP_A, 1 LAMP_B, 2 BLACK, 3 THERMAL (R154). -/
def Photometer.input (p : Photometer) (i : Nat) : InputRecord :=
  p.inputs.getD i { enabled := false, average := 0, streak := 0 }

/-! ### The scan in progress (R154, R156) -/

/-- The number of inputs that are scanned. -/
def State.enabledInputs (s : State) : Nat := s.photo.inputs.countP (·.enabled)

/-- One sample time in ns, 2 us x (divisor + 1) (R156). -/
def State.sampleTime (s : State) : Nat := 2 * Config.microsecond * (s.settings.hdr.divisor + 1)

/-- How many samples of a scan begun at `began` have been taken by time t: one at the end of each sample
time, of the sixteen rounds at most (R156, assumption 13). -/
def State.samplesTaken (s : State) (began t : Nat) : Nat :=
  min (16 * s.enabledInputs) ((t - began) / s.sampleTime)

/-- The round in which a scan stands after n samples, 1..16 (R154, R156). -/
def roundAfter (n enabled : Nat) : Nat := min 16 (n / enabled + 1)

/-- The codes of the samples that a scan takes up to time t: those the converter gives next, and past
their end a free value of the time at which the sample is taken (assumption 13). -/
def newSamples (s : State) (c : Scan) (t : Nat) : List (BitVec 12) :=
  (List.range (s.samplesTaken c.began t - c.samples.length)).map fun i =>
    s.converter.getD i
      (Config.converterCode (c.began + (c.samples.length + i + 1) * s.sampleTime))

/-- The scan in progress takes the samples that fall up to time t (R156). -/
def scanUntil (s : State) (t : Nat) : State :=
  match s.scan with
  | none => s
  | some c =>
    let new := newSamples s c t
    (s.setScan (some { c with
      round := roundAfter (c.samples.length + new.length) s.enabledInputs
      samples := c.samples ++ new })).setConverter (s.converter.drop new.length)

/-! ### A scan's completion (R156 to R162) -/

/-- The average of one input's sixteen samples, floored: in each round it is the one at the input's place
among the enabled inputs (R156). -/
def Scan.average (c : Scan) (enabled place : Nat) : Nat :=
  ((List.range 16).foldl (fun a k => a + (c.samples.getD (k * enabled + place) 0).toNat) 0) / 16

/-- The length of a scan in ns: 16 rounds of one sample, 2 us x (divisor + 1), for each enabled input
(R156). -/
def State.scanTime (s : State) : Nat :=
  16 * s.enabledInputs * s.sampleTime

/-- The place of input i among the enabled inputs, in ascending index (R156). -/
def Photometer.placeOf (p : Photometer) (i : Nat) : Nat := (p.inputs.take i).countP (·.enabled)

/-- Input record i after a scan: an enabled input's last average is set; a disabled one's stays (R156). -/
def Photometer.sampled (p : Photometer) (c : Scan) (i : Nat) : InputRecord :=
  if (p.input i).enabled then
    { p.input i with average := c.average (p.inputs.countP (·.enabled)) (p.placeOf i) }
  else p.input i

/-- The input records after a scan (R156). -/
def Photometer.scanned (p : Photometer) (c : Scan) : List InputRecord :=
  (List.range 4).map (p.sampled c)

/-- An enabled input's last average, 0 for a disabled one. -/
def InputRecord.reading (r : InputRecord) : Nat := if r.enabled then r.average else 0

/-- The capacity from the lamp averages and the lamp gain (R158). -/
def Photometer.capacityOf (p : Photometer) (gain : Nat) : Nat :=
  min 4095 (((p.input 0).reading + (p.input 1).reading) * gain / 256)

/-- The black code from the four BLACK averages and the black gain (R159). -/
def blackCode (blacks : List Nat) (gain : Nat) : Nat := min 4095 (blacks.sum / 4 * gain / 256)

/-- The measurement counts a scan; the fourth sets the black code and the station enters LISTEN (R53,
R159). -/
def stepMeasurement (s : State) : State :=
  match s.photo.measurement with
  | none => s
  | some m =>
    let blacks := m.blacks ++ [(s.photo.input 2).reading]
    if 3 ≤ m.scans then
      enterListen (s.setPhoto { s.photo with
        measurement := none, black := blackCode blacks s.settings.blackGain })
    else s.setPhoto { s.photo with measurement := some { scans := m.scans + 1, blacks := blacks } }

/-- A streak field is set. -/
def State.setStreak (s : State) (i n : Nat) : State :=
  s.setPhoto { s.photo with inputs := modifyAt (fun r => { r with streak := n }) i s.photo.inputs }

/-- LAMP_LOW is raised: the fault is reported and the cause appears (R160, R162). -/
def raiseLampLow (s : State) : State :=
  causeAppears .lampLow ((s.setPhoto { s.photo with lampLow := true }).report .lampLow s.photo.capacity)

/-- LAMP_LOW clears (R160, R162). -/
def clearLampLow (s : State) : State := causeClears .lampLow (s.setPhoto { s.photo with lampLow := false })

/-- The lamp streak tested (R160). -/
def lampTest (s : State) : State :=
  if (s.photo.input 0).enabled || (s.photo.input 1).enabled then
    let streak := (s.photo.input 0).streak
    let threshold := s.settings.hdr.lampThreshold
    if s.photo.lampLow then
      if threshold + 64 ≤ s.photo.capacity then
        if 63 ≤ streak then clearLampLow (s.setStreak 0 0) else s.setStreak 0 (streak + 1)
      else s.setStreak 0 0
    else if s.photo.capacity < threshold then
      if 7 ≤ streak then raiseLampLow (s.setStreak 0 0) else s.setStreak 0 (streak + 1)
    else s.setStreak 0 0
  else s

/-- THERMAL is raised: the fault is reported and the cause appears (R161, R162). -/
def raiseThermal (s : State) : State :=
  causeAppears .thermal
    ((s.setPhoto { s.photo with thermal := true }).report .thermal (s.photo.input 3).average)

/-- THERMAL clears (R161, R162). -/
def clearThermal (s : State) : State := causeClears .thermal (s.setPhoto { s.photo with thermal := false })

/-- The thermal streak tested (R161). -/
def thermalTest (s : State) : State :=
  if (s.photo.input 3).enabled then
    let streak := (s.photo.input 3).streak
    let limit := s.settings.hdr.thermalLimit
    let reading := (s.photo.input 3).average
    if s.photo.thermal then
      if reading < limit - 128 then
        if 255 ≤ streak then clearThermal (s.setStreak 3 0) else s.setStreak 3 (streak + 1)
      else s.setStreak 3 0
    else if limit < reading then
      if 3 ≤ streak then raiseThermal (s.setStreak 3 0) else s.setStreak 3 (streak + 1)
    else s.setStreak 3 0
  else s

/-- A scan's completion: averages, capacity, the Level Controller, the measurement, the two streaks
(LAMP_LOW before THERMAL), and the next scan begins (R156 to R162). -/
def completeScan (s : State) : State :=
  match s.scan with
  | none => s
  | some c =>
    let s := s.setPhoto { s.photo with inputs := s.photo.scanned c }
    let s := s.setPhoto { s.photo with capacity := s.photo.capacityOf s.settings.lampGain }
    let s := stepMeasurement (offerCapacity s.photo.capacity s)
    let s := thermalTest (lampTest s)
    s.setScan (some (.begun s.now))

end Sys2Proof.Machine
end

