-- ==== Sys2Proof/Machine/Clock.lean ====
section
/-! DEFINITION. The model's clock: what runs with it (assumption 1). -/

namespace Sys2Proof.Machine

/-- Time runs on to t: the link sends what is due on the way, and the scan in progress takes its samples
(assumption 1). A time already past changes nothing. -/
def advanceTo (t : Nat) (s : State) : State :=
  if t ≤ s.now then s else (scanUntil (emitUntil s t) t).setNow t

end Sys2Proof.Machine
end

