-- ==== Sys2Proof/Machine/FrameMark.lean ====
section
/-! DEFINITION. The frame mark and the frame line: what every owner does at a mark (R130), edges, expiries,
the stuck line (R126 to R140). -/

namespace Sys2Proof.Machine

/-- The Frame Timer's own work at a mark: the number rises by one, the last-mark time is set, the timer
restarts with P and the pace line goes high for 8 us (R130, R140). -/
def timerAtMark (s : State) : State :=
  s.setTimer { s.timer with
    number := s.timer.number + 1
    lastMark := some s.now
    expiry := some (s.now + s.periodNs)
    pace := some (s.now + 8 * Config.microsecond) }

/-- The Bus Controller's work at a mark: the straddle mark of a message in progress is set, and the mark is
noted for a lead character whose start bit has come (R113). -/
def straddleAtMark (s : State) : State :=
  s.setBus { s.bus with
    markSince := true, assembly := s.bus.assembly.map fun a => { a with straddle := true } }

/-- The losses and purges due at a mark, in ascending station number (R93). -/
def peerDues (s : State) : List DueStep :=
  ((List.range 31).filter (fun i => (s.peer (i + 1)).overdue s.settings.hdr.silence)).map
      (fun i => DueStep.peerLost (i + 1))
    ++ ((List.range 31).filter (fun i => (s.peer (i + 1)).purgeable)).map
      (fun i => DueStep.peerPurge (i + 1))

/-- A list of one step, or none. -/
def dueIf (b : Bool) (d : DueStep) : List DueStep := if b then [d] else []

/-- Whether the test of the hold counter at a mark raises INPUT (R149). -/
def holdDue (s : State) : Bool :=
  s.input.link == .lost && decide (s.settings.hdr.holdLimit < s.input.hold)
    && s.patternSource == .input && !s.life.causes.input

/-- The steps due at a mark, by the state after the owners' work and the station state before it
(R54, R67, R93, R98, R149; assumption 3). -/
def duesAtMark (before : StationState) (s : State) : List DueStep :=
  peerDues s
    ++ dueIf (s.schedule.running && s.schedule.count == s.settings.hdr.announce) .announcement
    ++ dueIf (holdDue s) .holdLimit
    ++ dueIf (before == .listen && s.life.listenCount == s.settings.hdr.listenTime) .listenPeriodEnd
    ++ dueIf (before == .dark && decide (s.settings.hdr.announce ≤ s.life.darkCount)) .rejoin

/-- A frame mark taken now (R130): every owner does its per-mark work at the number after the increment.
The owners touch different state; the order written here is assumption 11. -/
def frameMark (s : State) : State :=
  let before := s.life.state
  let s := presenterChoice (cutRaster (timerAtMark s))
  let s := lifeAtMark (zonesAtMark (inputAtMark s))
  let s := peersAtMark (levelAtMark s)
  let s := beginRaster (straddleAtMark s)
  s.setDue (duesAtMark before s)

/-- The early-edge window, 7/8 x P in ns (R129). -/
def State.earlyWindow (s : State) : Nat := s.settings.period.getD 16667 * 875

/-- Whether a falling edge now is a frame mark: none was taken yet, or the last one is at least 7/8 x P
ago (R129). -/
def State.edgeAccepted (s : State) : Bool :=
  match s.timer.lastMark with
  | none => true
  | some t => decide (s.earlyWindow ≤ s.now - t)

/-- Whether the own assertion of the line is on now (R128). -/
def State.asserting (s : State) : Bool :=
  match s.timer.assertion with
  | some e => decide (s.now < e)
  | none => false

/-- A falling edge now, in every state but START (R129, R132, R133, R135). -/
def takeFall (s : State) : State :=
  match s.timer.lineState with
  | .stuck => s.setTimer { s.timer with highSince := none }
  | .normal =>
    let accepted := s.edgeAccepted
    let s := s.setTimer { s.timer with lowSince := some s.now, lowOwn := s.asserting }
    if accepted then frameMark s else s.count .early

/-- A rising edge now, in every state but START (R132, R135). -/
def takeRise (s : State) : State :=
  match s.timer.lineState with
  | .stuck => s.setTimer { s.timer with lowSince := none, highSince := some s.now }
  | .normal => s.setTimer { s.timer with lowSince := none }

/-- The own timer expires now (R127, R128, R134). -/
def takeExpiry (s : State) : State :=
  let s := s.setTimer { s.timer with expiry := some (s.now + s.periodNs) }
  match s.timer.lineState with
  | .stuck => frameMark s
  | .normal =>
    if s.life.state = .sleep then s
    else s.setTimer { s.timer with assertion := some (s.now + 4 * Config.microsecond) }

/-- The line becomes STUCK (R132); the detail says whether the low began with the own assertion. -/
def becomeStuck (s : State) : State :=
  (s.setTimer { s.timer with lineState := .stuck, lowSince := none, highSince := none }).report
    .lineStuck (if s.timer.lowOwn then 1 else 0)

/-- The line returns to NORMAL (R135). -/
def recoverLine (s : State) : State :=
  s.setTimer { s.timer with lineState := .normal, highSince := none }

end Sys2Proof.Machine
end

