-- ==== Sys2Proof/Machine/ImageLoad.lean ====
section
/-! DEFINITION. The Image Loader and the resets: reset kinds, the load and its checks, handing out the
configuration, the STORE write (R164 to R176, with R29, R30, R52, R53, R127, R155, R157). -/

namespace Sys2Proof.Machine

/-! ### Resets (R164) -/

/-- The back-off generator's seed: the station number in the top five bits and 1 in the lowest (R122). -/
def seedOf (stn : Nat) : BitVec 16 := BitVec.ofNat 16 (stn * 2048 + 1)

/-- The buffer records after a reset: FREE with sequence 0; the DRAM contents are not cleared (R146). -/
def resetBuffers (bs : List FrameBuffer) : List FrameBuffer :=
  bs.map fun b => { b with state := .free, sequence := 0 }

/-- What every reset does alike: each block takes its reset value, the straps are as given, and what lies
outside the part (the EEPROM, the DRAM, the line's level, the model's own fields) stays (R164). -/
def resetBlocks (cause : ResetCause) (s : State) : State :=
  { State.reset with
    pending := s.pending, now := s.now, draws := s.draws, eeprom := s.eeprom, straps := s.straps
    loader := { Loader.reset cause s.straps with cycle := s.loader.cycle }
    buffers := resetBuffers s.buffers
    encoder := { Encoder.reset with closed := s.encoder.closed }
    converter := s.converter
    bus := .reset s.now (seedOf s.stn)
    timer := { FrameTimer.reset with lineLow := s.timer.lineLow } }

/-- A power-on or pin reset begins: everything is at its reset value and the reset holds the part until
it ends (R164). -/
def holdReset (cause : ResetCause) (s : State) : State := (resetBlocks cause s).setResetPhase .held

/-- The start record's strap fields and flags, and the load's beginning (R165, R166, R168). -/
def beginLoad (s : State) : State :=
  s.setLoader { s.loader with
    phase := .waiting s.now
    record := { s.loader.record with
      straps := s.straps, svcStrap := s.straps.svc, stationZero := s.straps.stn == 0 } }

/-- A power-on or pin reset ends: the straps are sampled, the back-off generator is seeded from the new
number and the load begins (R164, R165, R168). R115's moment of the reset, for the last start bit on the
line, is taken to be this end of it (assumption 30, DESIGN CHOICE). -/
def releaseReset (straps : Straps) (s : State) : State :=
  let s := (s.setResetPhase .running).setStraps straps
  beginLoad (s.setBus (.reset s.now (seedOf s.stn)))

/-- The reset of the RESTART order: the straps, the frame number, the fault record and the counters are
kept, the unset flag is cleared, and the load begins (R164, R182). -/
def restartReset (s : State) : State :=
  let r := (resetBlocks .restart s).setResetPhase .running
  let r := r.setFaults s.faults
  beginLoad (r.setTimer { r.timer with number := s.timer.number, unset := false })

/-- The RESTART's reset may take effect: it is pending, its answer has left or there is none, and no
transfer of a STORE is running (R176, R182). -/
def State.restartDue (s : State) : Bool :=
  s.console.restartPending && s.console.restartReleased && s.loader.transfer.isNone

/-! ### The header (R167, R169, R170) -/

/-- A header field of the table of R167: offset, bytes, and the range after clamping. -/
structure FieldSpec where
  offset : Nat
  bytes : Nat
  lo : Nat
  hi : Nat
  deriving DecidableEq, Repr

/-- The header fields that are clamped, in the order of R167's table. -/
def clampedFields : List FieldSpec :=
  [⟨3, 1, 5, 7⟩, ⟨4, 2, 64, 4096⟩, ⟨6, 2, 64, 4096⟩, ⟨8, 2, 16, 2048⟩, ⟨10, 2, 16, 2048⟩, ⟨12, 1, 2, 65⟩,
   ⟨13, 1, 2, 65⟩, ⟨14, 2, 8000, 41667⟩, ⟨16, 1, 4, 64⟩, ⟨17, 1, 2, 64⟩, ⟨18, 2, 4, 512⟩,
   ⟨20, 2, 8, 1024⟩, ⟨22, 1, 0, 6⟩, ⟨23, 1, 0, 6⟩, ⟨24, 1, 0, 6⟩, ⟨25, 1, 0, 6⟩, ⟨26, 2, 1, 4095⟩,
   ⟨28, 2, 0, 4031⟩, ⟨30, 2, 256, 4094⟩, ⟨32, 1, 0, 255⟩, ⟨33, 1, 0, 3⟩, ⟨35, 1, 0, 31⟩, ⟨37, 1, 0, 64⟩]

/-- A value set to the nearer end of its range (R170). -/
def clampTo (lo hi n : Nat) : Nat := max lo (min hi n)

/-- The field as stored. -/
def FieldSpec.raw (f : FieldSpec) (m : Memory) : Nat :=
  if f.bytes = 2 then m.word f.offset else (m.read f.offset).toNat

/-- Whether the stored value lies outside its range. -/
def FieldSpec.out (f : FieldSpec) (m : Memory) : Bool :=
  decide (f.raw m < f.lo) || decide (f.hi < f.raw m)

/-- The field at an offset after clamping (R170). -/
def headerField (m : Memory) (offset : Nat) : Nat :=
  match clampedFields.find? (fun f => f.offset == offset) with
  | some f => clampTo f.lo f.hi (f.raw m)
  | none => (m.read offset).toNat

/-- The dither mode of a header value (R167). -/
def ditherOf : Nat → DitherMode
  | 0 => .still
  | 1 => .alternate
  | 2 => .rotate
  | _ => .swap

/-- The header with every field clamped (R167, R170). -/
def readHeader (m : Memory) : Header :=
  { cellExp := headerField m 3, outW := headerField m 4, outH := headerField m 6,
    inW := headerField m 8, inH := headerField m 10, nx := headerField m 12, ny := headerField m 13,
    period := headerField m 14, announce := headerField m 16, lead := headerField m 17,
    silence := headerField m 18, listenTime := headerField m 20, joinCode := headerField m 22,
    leaveCode := headerField m 23, faultCode := headerField m 24, lossCode := headerField m 25,
    floor := headerField m 26, lampThreshold := headerField m 28, thermalLimit := headerField m 30,
    holdLimit := headerField m 32, dither := ditherOf (headerField m 33),
    enables := (List.range 4).map (fun i => bitOf (headerField m 34) i), divisor := headerField m 35,
    startDark := bitOf (headerField m 36) 0, lockCount := headerField m 37,
    sums := [m.word 38, m.word 40, m.word 42, m.word 44, m.word 46] }

/-- The number of header fields clamped (R170). -/
def headerClamps (m : Memory) : Nat := clampedFields.countP (fun f => f.out m)

/-- The header passes: magic, layout version and header sum (R169). -/
def headerGood (m : Memory) : Bool :=
  m.word 0 == 0x6A24 && (m.read 2).toNat == 1 && m.word 62 == m.sum 0 31

/-- The clamped count raised, saturating at 255 (R166). -/
def State.addClamped (s : State) (n : Nat) : State :=
  s.setLoader { s.loader with
    record := { s.loader.record with clamped := min 255 (s.loader.record.clamped + n) } }

/-- A section's result is kept; the first to fail sets CHECK_FAIL and reports IMAGE_CHECK (R169, R171). -/
def State.recordCheck (s : State) (k : Nat) (passed : Bool) : State :=
  let s := s.setLoader { s.loader with
    checks := s.loader.checks.set k (if passed then .passed else .failed) }
  if passed || s.loader.record.checkFail.isSome then s
  else (s.setLoader { s.loader with record := { s.loader.record with checkFail := some k } }).report
    .imageCheck k

/-- The load moves on. -/
def State.setLoadPhase (s : State) (p : LoadPhase) : State := s.setLoader { s.loader with phase := p }

/-- The image reads as blank: BLANK is set and the load ends (R168). -/
def blankImage (s : State) : State :=
  s.setLoader { s.loader with phase := .ended, record := { s.loader.record with blank := true } }

/-- The EEPROM acknowledges: any write cycle of its own is over, and the first byte tells a blank image
(R168). -/
def eepromReady (s : State) : State :=
  let s := s.setLoader { s.loader with cycle := none }
  if s.eeprom.read 0 = 0xFF then blankImage s else s.setLoadPhase .header

/-- The header is checked: a failure ends the load, a pass clamps the fields (R169, R170). -/
def checkHeader (s : State) : State :=
  if headerGood s.eeprom then
    let s := (s.recordCheck 0 true).addClamped (headerClamps s.eeprom)
    s.setLoader { s.loader with header := some (readHeader s.eeprom), phase := .sections 1 }
  else (s.recordCheck 0 false).setLoadPhase .ended

/-! ### The sections (R167, R171, R173) -/

/-- A section's first byte and its number of words (R167). -/
def sectionWords (h : Header) : Nat → Nat × Nat
  | 1 => (0x40, 32)
  | 2 => (0x80, 1024)
  | 3 => (0x880, 4096)
  | 4 => (0x2880, 4 * h.nx * h.ny)
  | _ => (Config.eepromBytes - 256 * h.lockCount, 128 * h.lockCount)

/-- The mesh covers the output raster (R7, R171). -/
def Header.covers (h : Header) : Bool :=
  decide ((h.outW - 1) / 2 ^ h.cellExp + 2 ≤ h.nx) && decide ((h.outH - 1) / 2 ^ h.cellExp + 2 ≤ h.ny)

/-- Whether section k, 1 to 5, passes its check (R171). -/
def sectionGood (m : Memory) (h : Header) (k : Nat) : Bool :=
  let w := sectionWords h k
  let sumOk := m.sum w.1 w.2 == h.sums.getD (k - 1) 0
  if k = 4 then sumOk && h.covers
  else if k = 5 then h.lockCount == 0 || sumOk
  else sumOk

/-- The number of values clamped as a section is read: the zone shapes of section 1 and the gains of
section 5 (R29, R166, R173). -/
def sectionClamps (m : Memory) (h : Header) (k : Nat) : Nat :=
  if k = 1 then (List.range 8).countP (fun i => decide (16 < (m.read (0x42 + 8 * i)).toNat))
  else if k = 5 ∧ h.lockCount ≠ 0 then
    let a := Config.eepromBytes - 256 * h.lockCount
    [m.word a, m.word (a + 2)].countP (fun g => decide (g < 128) || decide (511 < g))
  else 0

/-- The last byte of the next section has been read: the section is checked. After section 4 a lock count
of 0 leaves no section 5 to read: it counts as passed (R171). -/
def checkSection (s : State) : State :=
  match s.loader.phase, s.loader.header with
  | .sections k, some h =>
    let s := (s.recordCheck k (sectionGood s.eeprom h k)).addClamped (sectionClamps s.eeprom h k)
    if k = 4 ∧ h.lockCount = 0 then (s.recordCheck 5 true).setLoadPhase .ended
    else if 5 ≤ k then s.setLoadPhase .ended
    else s.setLoadPhase (.sections (k + 1))
  | _, _ => s

/-! ### Handing out the configuration (R172) -/

/-- The image is good: it is not blank, and the header and every other section passed (R52, R171, R172). -/
def Loader.imageGood (l : Loader) : Bool := !l.record.blank && l.checks.all (· == .passed)

/-- The two gains (R155, R171, R173). -/
def gainsOf (m : Memory) (h : Header) (section5 : Bool) : Nat × Nat :=
  if h.lockCount ≠ 0 ∧ section5 then
    let a := Config.eepromBytes - 256 * h.lockCount
    (clampTo 128 511 (m.word a), clampTo 128 511 (m.word (a + 2)))
  else (256, 256)

/-- n words from an address. -/
def Memory.words (m : Memory) (a n : Nat) : List Nat := (List.range n).map fun i => m.word (a + 2 * i)

/-- The mesh nodes (R167). -/
def readMesh (m : Memory) (h : Header) : List Node :=
  (List.range (h.nx * h.ny)).map fun k =>
    { u := m.word (0x2880 + 8 * k), v := m.word (0x2882 + 8 * k), entryA := m.word (0x2884 + 8 * k),
      entryB := m.word (0x2886 + 8 * k) }

/-- The configuration with a header that passed; the floor is 4095 when any section failed (R171, R172). -/
def loadedSettings (m : Memory) (h : Header) (l : Loader) : Settings :=
  let gains := gainsOf m h (l.checks.getD 5 .notChecked == .passed)
  { hdr := if l.imageGood then h else { h with floor := 4095 }
    period := some h.period, hasInput := true, lampGain := gains.1, blackGain := gains.2
    decode := m.words 0x80 1024, encode := m.words 0x880 4096, mesh := readMesh m h }

/-- The configuration with a blank image or a failed header (R155, R169). -/
def fallbackSettings : Settings :=
  { Settings.before with
    hdr := { Header.before with enables := [true, true, true, true] }, period := some 16667 }

/-- Zone record i from its descriptor, and whether an enabled descriptor names a bad neighbour
(R29, R30). -/
def descriptorZone (m : Memory) (stn i : Nat) : Zone × Bool :=
  let a := 0x40 + 8 * i
  let n := (m.read (a + 1)).toNat
  let shape := min 16 (m.read (a + 2)).toNat
  let marked := (m.read a).toNat == 1
  let bad := marked && (n == 0 || n == stn || decide (31 < n))
  ({ Zone.disabled with
      enabled := marked && !bad, neighbour := n, configuredShape := shape, agreedShape := shape,
      shapeInUse := shape }, bad)

/-- The zone table loaded: from the descriptors when the image is good, each bad one reporting
ZONE_CONFIG; else all disabled (R29, R30). The reports come in ascending zone index: R30 names no order of
the descriptors' checks (assumption 11, DESIGN CHOICE). -/
def loadZones (s : State) : State :=
  if s.loader.imageGood then
    let s' := s.setZones ((List.range 8).map fun i => (descriptorZone s.eeprom s.stn i).1)
    (List.range 8).foldl (fun t i =>
      if (descriptorZone s.eeprom s.stn i).2 then t.report .zoneConfig i else t) s'
  else s.setZones (List.replicate 8 .disabled)

/-- The owners take their configuration (R172). -/
def handOut (s : State) : State :=
  let cfg := match s.loader.header with
    | some h => loadedSettings s.eeprom h s.loader
    | none => fallbackSettings
  let s := s.setSettings cfg
  s.setPhoto { s.photo with
    inputs := s.photo.inputs.zipIdx.map fun p => { p.1 with enabled := cfg.hdr.enables.getD p.2 false } }

/-- The Frame Timer and the Input Port as the station leaves START: the timer starts with P, the
last-mark time is none, a line already low is measured from now, and the loss timer starts when there is
an input raster (R127, R132, R135, R142; assumption 18). -/
def startTimers (s : State) : State :=
  let s := s.setTimer { s.timer with
    expiry := some (s.now + s.periodNs), lastMark := none
    lowSince := if s.timer.lineLow then some s.now else none, lowOwn := false }
  if s.settings.hasInput then
    s.setInput { s.input with lossDeadline := some (s.now + s.lossTime) }
  else s

/-- Entry to MEASURE: a measurement and the first scan begin; with no input enabled the measurement is
complete at once and the station passes to LISTEN (R53, R159). -/
def enterMeasure (s : State) : State :=
  let s := startScan (changeState .measure s)
  if s.photo.inputs.any (·.enabled) then
    s.setPhoto { s.photo with measurement := some { scans := 0, blacks := [] } }
  else enterListen s

/-- The load ends in MEASURE, or in SERVICE for a blank or failed image, station number 0 or the SVC
strap (R52). -/
def State.loadSucceeded (s : State) : Bool :=
  s.loader.imageGood && s.straps.stn != 0 && !s.straps.svc

/-- The load is finished: configuration handed out, zones loaded, hold-dark taken from a good image's
start-dark option, and the station leaves START (R52, R56, R172). -/
def finishLoad (s : State) : State :=
  let s := loadZones (handOut s)
  let s := if s.loader.imageGood && s.settings.hdr.startDark then setHoldDark s else s
  let s := startTimers s
  let s := if s.loadSucceeded then enterMeasure s else startScan (enterService s)
  s.setLoader { s.loader with phase := .idle, header := none }

/-! ### The STORE write (R174 to R176) -/

/-- The result of a STORE order to an address (R174). -/
def storeResult (s : State) (address : Nat) : OrderResult :=
  if address % 32 ≠ 0 then .badArg
  else if s.loader.storeInFlight then .busy
  else if Config.eepromBytes - 256 * s.settings.hdr.lockCount ≤ address then .locked
  else .done

/-- An accepted write begins (R174, R175). -/
def beginStore (address : Nat) (bytes : List Byte) (s : State) : State :=
  s.setLoader { s.loader with
    storeInFlight := true, storeBegan := s.now, transfer := some { address := address, bytes := bytes } }

/-- The I2C transfer ends: the EEPROM has the 32 bytes and runs its own write cycle (R175, R176;
assumption 6). So it is also with an EEPROM that is missing or still in an earlier write cycle, of which the
spec says nothing here (assumption 6, DESIGN CHOICE). -/
def endTransfer (s : State) : State :=
  match s.loader.transfer with
  | none => s
  | some w =>
    (s.setEeprom (s.eeprom.writeBlock w.address w.bytes)).setLoader { s.loader with
      transfer := none
      cycle := some { address := w.address, bytes := s.eeprom.readBlock w.address w.bytes.length } }

/-- The store-in-flight flag clears, 5 ms after the write began (R175). A transfer takes less than 1 ms,
so one still noted has ended by then, and so has the EEPROM's cycle. -/
def clearStoreFlag (s : State) : State :=
  let s := endTransfer s
  s.setLoader { s.loader with storeInFlight := false, cycle := none }

/-- A byte of a page whose write was cut: each bit is the old or the new one, which is a free value
(R176, assumption 7). -/
def mixedByte (draw offset : Nat) (old new : Byte) : Byte :=
  let mask := Config.powerLossMask draw offset
  (old &&& ~~~mask) ||| (new &&& mask)

/-- The bytes of a cut write. -/
def mixedBytes (draw : Nat) : Nat → List Byte → List Byte → List Byte
  | i, a :: as, b :: bs => mixedByte draw i a b :: mixedBytes draw (i + 1) as bs
  | _, _, _ => []

/-- The EEPROM after a loss of supply: a write in flight leaves its bytes old, new or a mixture (R176). -/
def cutWrites (s : State) : Memory :=
  let m := match s.loader.cycle with
    | some w => s.eeprom.writeBlock w.address
        (mixedBytes s.draws 0 w.bytes (s.eeprom.readBlock w.address w.bytes.length))
    | none => s.eeprom
  match s.loader.transfer with
  | some w => m.writeBlock w.address
      (mixedBytes (s.draws + 1) 0 (m.readBlock w.address w.bytes.length) w.bytes)
  | none => m

/-- Whether a write to the EEPROM is in flight, on the I2C line or in the EEPROM's own cycle (R176). -/
def State.writeInFlight (s : State) : Bool := s.loader.transfer.isSome || s.loader.cycle.isSome

/-- Supply is lost, with its effect on a write in flight (R176). -/
def losePower (s : State) : State :=
  if s.writeInFlight then
    ((s.setEeprom (cutWrites s)).setDraws (s.draws + 2)).setLoader
      { s.loader with transfer := none, cycle := none }
  else s

end Sys2Proof.Machine
end

