-- ==== Sys2Proof/Machine/BusReceive.lean ====
section
/-! DEFINITION. The receive half of the Bus Controller: the assembler, the checks on completion and the
receive queue (R104, R110 to R114, R97), and foreign start bits (R117, R118). -/

namespace Sys2Proof.Machine

/-- The receive queue's room (R114). -/
def queueRoom : Nat := 8

/-- A message of the bus passes the checks on its kind and sender (R112, step 2). -/
def senderAllowed (kind : MsgKind) (sender : Nat) : Bool :=
  match kind with
  | .order => sender == 0
  | .status | .join | .leave | .answer => sender != 0

/-- A complete message with a good check character, of an assigned kind: steps 2 to 7 of R112. -/
def keepMessage (m : Message) (s : State) : State :=
  if !senderAllowed m.kind m.sender then s.count .discard
  else if s.stn != 0 && m.sender == s.stn then s.report .duplicateStation m.kind.code
  else if s.life.state == .sleep && m.kind != .order then s
  else if m.kind == .answer then s
  else if queueRoom ≤ s.bus.rxQueue.length then (s.report .rxOverflow m.kind.code).count .overflow
  else s.setBus { s.bus with rxQueue := s.bus.rxQueue ++ [m] }

/-- The assembler holds no message in progress. -/
def dropAssembly (s : State) : State := s.setBus { s.bus with assembly := none }

/-- The assembler discards the message in progress as BROKEN (R110, R111). -/
def breakMessage (s : State) : State := (dropAssembly s).count .broken

/-- A message is complete with its check character: the tests of R112 in order. -/
def completeMessage (a : Assembly) (check : Byte) (s : State) : State :=
  let s := dropAssembly s
  if crc8 (a.lead :: BitVec.ofNat 8 (a.length.getD 0) :: a.payload) ≠ check then s.count .broken
  else match msgKindOf (a.lead.toNat / 32) with
    | none => s.count .discard
    | some kind =>
      keepMessage { kind := kind, sender := a.lead.toNat % 32, payload := a.payload,
                    straddle := a.straddle } s

/-- A message in progress takes its next character: the length, a payload character or the check
character (R110). -/
def extendMessage (a : Assembly) (d : Byte) (s : State) : State :=
  match a.length with
  | none =>
    if 60 < d.toNat then breakMessage s
    else s.setBus { s.bus with assembly := some { a with length := some d.toNat } }
  | some n =>
    if a.payload.length < n then
      s.setBus { s.bus with assembly := some { a with payload := a.payload ++ [d] } }
    else completeMessage a d s

/-- A message in progress is discarded, if there is one (R110). -/
def breakIfAny (s : State) : State :=
  match s.bus.assembly with
  | some _ => breakMessage s
  | none => s

/-- A new message begins with this lead; its start bit came at the last start bit on the line, and a frame
mark taken since then falls within the message (R110, R113). -/
def beginMessage (lead : Byte) (s : State) : State :=
  let a : Assembly :=
    { lead := lead, length := none, payload := [], lastStart := s.bus.lastStart,
      straddle := s.bus.markSince }
  s.setBus { s.bus with assembly := some a }

/-- A character the receiver completes goes to the assembler (R110). -/
def assemble (ch : Character) (s : State) : State :=
  if ch.stop = false then breakIfAny s
  else if ch.mark then beginMessage ch.data (breakIfAny s)
  else
    match s.bus.assembly with
    | none => s
    | some a => extendMessage a ch.data s

/-- The assembler's timeout in bit times (R111). -/
def assemblerTimeout : Nat := 22

/-- A start bit at time t that the own station did not drive: the line is busy from it with a gap of 24,
the assembler's timeout restarts, and a transmitter in GAP, BACKOFF or LEAD defers to GAP, keeping what is
left of its back-off (R111, R117, R118). A start bit told late has been followed by a mark when the last
mark lies after it (R113). The characters that a difference made ignored end where no start bit has come for
the assembler's timeout (R121, assumption 33). -/
def foreignStart (t : Nat) (s : State) : State :=
  let b := s.bus
  let left := b.backoffLeft t s.bitTime
  let b := { b with
    lastStart := t, gap := 24, markSince := s.timer.lastMark.any fun m => decide (t < m)
    assembly := b.assembly.map fun a => { a with lastStart := t }
    deaf := b.deaf && decide (t < b.lastStart + assemblerTimeout * s.bitTime) }
  match s.bus.txState with
  | .gap | .backoff | .lead => s.setBus { b with txState := .gap, txSince := t, backoff := left }
  | .idle => s.setBus b
  | .sending => s

/-- The time from a character's start bit to its completion: the receiver reads the stop bit, bit 10, at the
middle of its bit time (R104). -/
def State.completionTime (s : State) : Nat := 21 * s.bitTime / 2

/-- The start bit of a character completed now is the last one on the line when that lies no more than the
character's 11 bit times back; otherwise it was not told, lies the completion time back, and is taken as a
foreign start bit then (R104, assumption 14). -/
def noteStart (s : State) : State :=
  if s.now ≤ s.bus.lastStart + 11 * s.bitTime then s
  else foreignStart (s.now - s.completionTime) s

/-- A character completed while the station does not send goes to the assembler, but for those read back
after a difference in a later character of the own message, which are ignored (R110, R121). -/
def hear (ch : Character) (s : State) : State := if s.bus.deaf then s else assemble ch s

/-- The receiver completes a character, read from its eleven bits: while SENDING it goes to the echo
comparison and not to the assembler (R104, R118). -/
def receive (bits : CharacterBits) (s : State) : State :=
  match readCharacter bits, s.bus.txState with
  | none, _ | some _, .sending => s
  | some ch, .idle | some ch, .gap | some ch, .backoff | some ch, .lead => hear ch (noteStart s)

end Sys2Proof.Machine
end

