-- ==== Sys2Proof/Machine/BusSend.lean ====
section
/-! DEFINITION. The send half of the Bus Controller: what is built, access to the line, collisions and
back-off (R100, R101, R115 to R124). -/

namespace Sys2Proof.Machine

/-! ### What is built (R100, R101, R107, R108) -/

/-- The own STATUS's payload, from its owners' state as it stands (R100, R107). The capacity is C_own in every
state, as R100's table and R73 have it, also in the SERVICE of a failed image, of which R100's last sentence
says the capacity as the Photometer holds it (assumption 32, DESIGN CHOICE). -/
def statusPayload (s : State) : List Byte :=
  let h := s.life.handover
  let r := s.level.record
  let pairs := ownZoneList s
  bytes2 s.timer.number.toNat ++ byte1 s.life.state.code ++ bytes2 s.level.capacity
    ++ bytes2 s.photo.black ++ byte1 (ownConditions s).toNat
    ++ byte1 (handoverCode (h.map (·.kind))) ++ bytes2 ((h.map (·.start.toNat)).getD 0)
    ++ byte1 ((h.map (·.code)).getD 0)
    ++ bytes2 r.serial.toNat ++ bytes2 r.startLevel ++ bytes2 r.target ++ bytes2 r.start.toNat
    ++ bytes2 r.ramp ++ byte1 pairs.length
    ++ pairs.flatMap fun p => byte1 p.1 ++ byte1 p.2

/-- A JOIN or LEAVE's payload, from the own handover record (R101, R108). -/
def noticePayload (s : State) (h : Handover) : List Byte :=
  bytes2 s.timer.number.toNat ++ bytes2 h.start.toNat ++ byte1 h.code ++ byte1 h.reason.code
    ++ bytes2 s.level.capacity

/-- The message kind of a handover record (R101). -/
def HandoverKind.msgKind : HandoverKind → MsgKind
  | .join => .join
  | .leave => .leave

/-! ### The answer FIFO (R116) -/

/-- The answer FIFO's room (R116). -/
def answerRoom : Nat := 4

/-- An answer pushed at the tail of the FIFO, or dropped when it holds 4 (R116). -/
def pushAnswer (a : AnswerRecord) (s : State) : State :=
  if answerRoom ≤ s.bus.answers.length then (s.count .answerDrop).report .answerOverflow a.code
  else s.setBus { s.bus with answers := s.bus.answers ++ [a] }

/-- The head answer leaves the FIFO. The Console Agent is told: the RESTART's answer, which is the last
one pushed, has left when none remains (R116, R182). -/
def answerLeaves (s : State) : State :=
  let rest := s.bus.answers.tail
  let s := s.setBus { s.bus with answers := rest }
  if s.console.restartPending && rest.isEmpty then
    s.setConsole { s.console with restartReleased := true }
  else s

/-! ### Access to the line (R117 to R119) -/

/-- The transmitter enters LEAD: the driver is enabled (R118). -/
def enterLead (s : State) : State :=
  s.setBus { s.bus with txState := .lead, txSince := s.now, backoff := 0 }

/-- The gap in force has passed (R117, R118). -/
def endGap (s : State) : State :=
  if 0 < s.bus.backoff then s.setBus { s.bus with txState := .backoff, txSince := s.now }
  else enterLead s

/-- The lead character of a message begins: the station drives the line (R117, R119). -/
def beginSending (item : LineItem) (bytes : List Byte) (s : State) : State :=
  s.setBus { s.bus with
    txState := .sending, txSince := s.now, item := item, message := bytes, lastStart := s.now, gap := 48,
    markSince := false, deaf := false }

/-- The level at which the own driver holds the line at time t, none while it is disabled: 1 in LEAD, and in
SENDING the bits of the message's characters, one after the other (R104, R118). Past the last one it is the
stop bit's. -/
def State.drivenLevel (s : State) (t : Nat) : Option Bool :=
  let bit := (t - s.bus.txSince) / s.bitTime
  match s.bus.txState with
  | .lead => some true
  | .sending => some (match (messageCharacters s.bus.message)[bit / 11]? with
    | some ch => ch.bits.getLsbD (bit % 11)
    | none => true)
  | .idle | .gap | .backoff => none

/-- The handover notice is chosen (R101, R119). -/
def sendNotice (h : Handover) (s : State) : State :=
  beginSending .notice (messageBytes h.kind.msgKind s.stn (noticePayload s h))
    (s.setBus { s.bus with handoverWanted := false })

/-- The oldest answer is chosen; it stays in the FIFO (R119). -/
def sendAnswer (a : AnswerRecord) (s : State) : State :=
  beginSending .answer (messageBytes .answer s.stn a.payload) s

/-- The STATUS is chosen (R100, R119). -/
def sendStatus (s : State) : State :=
  beginSending .status (messageBytes .status s.stn (statusPayload s))
    (s.setBus { s.bus with statusWanted := false })

/-- Nothing is sendable at the lead: the driver is disabled and no attempt is counted (R119). -/
def backToIdle (s : State) : State := s.setBus { s.bus with txState := .idle, txSince := s.now }

/-- The choice at the lead: the handover notice, then the oldest answer, then the STATUS (R119). -/
def beginLead (s : State) : State :=
  if s.noticeSendable then
    match s.life.handover with
    | some h => sendNotice h s
    | none => backToIdle s
  else if s.answerSendable then
    match s.bus.answers with
    | a :: _ => sendAnswer a s
    | [] => backToIdle s
  else if s.statusSendable then sendStatus s
  else backToIdle s

/-! ### The end of a message (R121 to R124) -/

/-- One step of the back-off generator: the new bit is the exclusive-or of bits 15, 13, 12 and 10 (R122). -/
def lfsrStep (r : BitVec 16) : BitVec 16 :=
  (r <<< 1) ||| (BitVec.ofBool (r.getLsbD 15 ^^ r.getLsbD 13 ^^ r.getLsbD 12 ^^ r.getLsbD 10)).setWidth 16

/-- The slots drawn from a stepped register at an attempt count: the top min(attempt, 5) bits (R122). -/
def drawnSlots (r : BitVec 16) (attempts : Nat) : Nat := r.toNat / 2 ^ (16 - min attempts 5)

/-- The kind code of the message on the line, from its lead character (R105). -/
def Bus.messageKind (b : Bus) : Nat := byteAt b.message 0 / 32

/-- Which character of the message is on the line at time t, its lead being 0: the characters follow one
another, 11 bit times each (R104, R105, assumption 24). -/
def characterIndex (b : Bus) (t bitTime : Nat) : Nat :=
  min (b.message.length - 1) ((t - b.txSince) / (11 * bitTime))

/-- The start bit of the character of the message on the line at time t (R104, assumption 24). -/
def characterStart (b : Bus) (t bitTime : Nat) : Nat :=
  b.txSince + 11 * bitTime * characterIndex b t bitTime

/-- The item goes back after a collision that does not abandon: STATUS-wanted is set again, handover-wanted
when the own record still stands; an answer is still in the FIFO (R121). -/
def itemBack (s : State) : State :=
  match s.bus.item with
  | .status => s.wantStatus
  | .notice => if s.life.handover.isSome then s.setBus { s.bus with handoverWanted := true } else s
  | .answer | .none => s

/-- The transmitter stops driving and enters GAP with 48 in force from the colliding character's start
bit. A character read back in place of the own lead goes to the assembler like any other; after a difference
in a later character the assembler takes none of what it reads back (R117, R121). -/
def stopDriving (s : State) : State :=
  s.setBus { s.bus with
    txState := .gap, txSince := s.now, item := .none, message := []
    lastStart := characterStart s.bus s.now s.bitTime, gap := 48
    deaf := decide (0 < characterIndex s.bus s.now s.bitTime) }

/-- The sixteenth collision: the message is abandoned (R124). -/
def abandon (s : State) : State :=
  let answer := s.bus.item == .answer
  let s := (s.report .busAbandon s.bus.messageKind).count .abandon
  let s := s.setBus { s.bus with attempts := 0, backoff := 0 }
  if answer then answerLeaves s else s

/-- A back-off is drawn (R122). -/
def drawBackoff (s : State) : State :=
  let r := lfsrStep s.bus.lfsr
  s.setBus { s.bus with lfsr := r, backoff := 40 * drawnSlots r s.bus.attempts }

/-- A collision while SENDING (R121, R122, R124). -/
def collide (s : State) : State :=
  let s := s.count .collision
  let s := s.setBus { s.bus with attempts := s.bus.attempts + 1 }
  stopDriving (if 16 ≤ s.bus.attempts then abandon s else itemBack (drawBackoff s))

/-- The stop bit of the check character is echoed unchanged: the message is sent (R123). -/
def messageEnds (s : State) : State :=
  let answer := s.bus.item == .answer
  let s := s.setBus { s.bus with
    txState := .idle, txSince := s.now, item := .none, message := [], attempts := 0, backoff := 0
    lastStart := characterStart s.bus s.now s.bitTime, gap := 48 }
  if answer then answerLeaves s else s

end Sys2Proof.Machine
end

