-- ==== Sys2Proof/Machine/Orders.lean ====
section
/-! DEFINITION. The Console Agent: taking an order, the tests that settle it, what each order does and
what each READ reports (R49, R103, R163, R177 to R183). -/

namespace Sys2Proof.Machine

/-! ### Taking an order (R177 to R179) -/

/-- The Console Agent can take an order: it has none in hand and the station is not in START (R114,
R177). -/
def State.takesOrders (s : State) : Bool := s.console.inHand.isNone && s.life.state != .start

/-- The ORDER at the head of the queue is taken into hand, when it is one that `accepts` names; an order
that does not address the station is dropped (R177, R179). A head message of another kind, or another
order, waits (assumption 15). -/
def withOrder (accepts : Order → Bool) (carry : Message → Order → State → State) (s : State) : State :=
  match s.bus.rxQueue with
  | [] => s
  | m :: _ =>
    if m.kind = .order ∧ s.takesOrders then
      match readOrder m.payload with
      | none => s
      | some o =>
        if accepts o then
          let s := popQueue s
          if o.addresses s.stn then carry m o s else s
        else s
    else s

/-- The order named this station alone, and the station can answer (R179). -/
def Order.individual (o : Order) (s : State) : Bool := o.mask == 31 && s.stn != 0

/-- The answer to an order is pushed, when one is made (R116, R179). -/
def answerOrder (o : Order) (result : OrderResult) (bytes : List Byte) (s : State) : State :=
  if o.individual s then
    pushAnswer { serial := o.serial, code := o.code, result := result.code, bytes := bytes } s
  else s

/-- What an order comes to: its result, an answer's data and the state after it. -/
structure Settled where
  result : OrderResult
  bytes : List Byte
  after : State
  deriving DecidableEq, Repr

/-- An order refused: nothing is carried out. -/
def refuse (r : OrderResult) (s : State) : Settled := { result := r, bytes := [], after := s }

/-- An order carried out, answered DONE with no data. -/
def carriedOut (s : State) : Settled := { result := .done, bytes := [], after := s }

/-- The tests of R179 from the argument length on, then the order, then its answer. -/
def settleOrder (act : Order → State → Settled) (_m : Message) (o : Order) (s : State) : State :=
  let r := if o.args.length = argumentBytes o.code then act o s else refuse .badArg s
  answerOrder o r.result r.bytes r.after

/-- An order whose code is this one. -/
def hasCode (c : Nat) (o : Order) : Bool := o.code == c

/-- A READ order that names this item, or that names none of the seven (assumption 15). -/
def readsItem (item : Nat) (o : Order) : Bool :=
  o.code == 5 && (o.args.length != 2 || decide (6 < byteAt o.args 0) || byteAt o.args 0 == item)

/-! ### The orders (R180) -/

/-- LEVEL (R82, R180). The order's record stands whatever its serial (R82, R83), also where a STATUS adopted before
it brought a serial ahead of the order's, of which R85 says that the record with the serial ahead stands (assumption 34,
DESIGN CHOICE). -/
def actLevel (o : Order) (s : State) : Settled :=
  if 1 < byteAt o.args 6 then refuse .badArg s
  else
    let start := if byteAt o.args 6 = 0 then some (BitVec.ofNat 16 (wordAt o.args 4)) else none
    carriedOut (replaceLevel (orderedRecord s o.serial (wordAt o.args 0) (wordAt o.args 2) start) s)

/-- DARK (R56, R180). -/
def actDark (_o : Order) (s : State) : Settled := carriedOut (setHoldDark s)

/-- LIGHT (R56, R180). -/
def actLight (_o : Order) (s : State) : Settled :=
  if s.life.state = .service then refuse .notNow s else carriedOut (clearHoldDark s)

/-- The pattern source of a pattern code (R178). -/
def patternOf : Nat → PatternSource
  | 0 => .input
  | 1 => .flat
  | 2 => .grid
  | _ => .zonemap

/-- PATTERN (R13, R149, R180): the flat level is taken for FLAT alone, and a source other than INPUT clears
the INPUT cause. -/
def actPattern (o : Order) (s : State) : Settled :=
  let code := byteAt o.args 0
  if 3 < code then refuse .badArg s
  else
    let s := s.setPattern (patternOf code)
    let s := if code = 1 then s.setFlatLevel (wordAt o.args 1) else s
    carriedOut (if code = 0 then s else causeClears .input s)

/-- CLEAR (R183). -/
def actClear (_o : Order) (s : State) : Settled := carriedOut (s.setFaults .clear)

/-- STORE (R174, R180). -/
def actStore (o : Order) (s : State) : Settled :=
  match storeResult s (wordAt o.args 0) with
  | .done => carriedOut (beginStore (wordAt o.args 0) (o.args.drop 2) s)
  | r => refuse r s

/-- SLEEP (R69, R180). -/
def actSleep (_o : Order) (s : State) : Settled :=
  match s.life.state with
  | .joining | .lit | .leaving | .dark => carriedOut (sleepOrdered s)
  | .start | .measure | .listen | .service | .sleep => refuse .notNow s

/-- WAKE (R71, R96, R180): the table is cleared, the station enters LISTEN and scanning resumes. -/
def actWake (_o : Order) (s : State) : Settled :=
  if s.life.state = .sleep then carriedOut (startScan (enterListen (clearPeers s)))
  else refuse .notNow s

/-- RESTART (R182): the order stays in hand with restart-pending set; the reset is released at once when
no answer of it is in the FIFO. A RESTART that makes no answer is in hand too until its reset, which a STORE's
transfer may hold (assumption 35, DESIGN CHOICE). -/
def carryRestart (m : Message) (o : Order) (s : State) : State :=
  if o.args.length = argumentBytes o.code then
    let waits := o.individual s && decide (s.bus.answers.length < answerRoom)
    (answerOrder o .done [] s).setConsole
      { inHand := some m, restartPending := true, restartReleased := !waits }
  else answerOrder o .badArg [] s

/-! ### READ (R181) -/

/-- A flag as one byte. -/
def flagByte (b : Bool) : List Byte := byte1 (bit b 0)

/-- The reset cause's code (R181). -/
def ResetCause.code : ResetCause → Nat
  | .power => 0
  | .pin => 1
  | .restart => 2

/-- A check result's code (R181). -/
def CheckResult.code : CheckResult → Nat
  | .notChecked => 0
  | .passed => 1
  | .failed => 2

/-- READ item 0: the start record and the section check results (R181). While CHECK_FAIL is clear its section
byte, for which R181 gives no value, is 0 (assumption 29, DESIGN CHOICE). -/
def readStart (s : State) : List Byte :=
  let r := s.loader.record
  byte1 r.resetCause.code ++ byte1 r.straps.stn.val
    ++ byte1 (bit r.straps.long 0 + bit r.straps.mirx 1 + bit r.straps.flipy 2 + bit r.straps.svc 3)
    ++ byte1 (bit r.blank 0 + bit r.svcStrap 1 + bit r.stationZero 2 + bit r.checkFail.isSome 3)
    ++ byte1 (r.checkFail.getD 0) ++ byte1 r.clamped
    ++ s.loader.checks.flatMap fun c => byte1 c.code

/-- The link state's code (R181). -/
def LinkState.code : LinkState → Nat
  | .idle => 0
  | .receiving => 1
  | .lost => 2

/-- READ item 1: the twelve counters, the link state and the hold counter (R181). -/
def readCounterBlock (s : State) : List Byte :=
  s.faults.counters.values.flatMap bytes2 ++ byte1 s.input.link.code ++ bytes2 s.input.hold

/-- An entry state's code (R181). -/
def EntryState.code : EntryState → Nat
  | .absent => 0
  | .live => 1
  | .lost => 2

/-- A pair's two bytes. -/
def pairBytes (p : Nat × Nat) : List Byte := byte1 p.1 ++ byte1 p.2

/-- READ item 2: peer entry n (R103, R181). -/
def readPeer (e : PeerEntry) : List Byte :=
  let r := e.levelCopy
  byte1 e.state.code ++ byte1 ((e.reported.map StationState.code).getD 255) ++ bytes2 e.capacity
    ++ bytes2 e.black ++ bytes2 e.frame.toNat ++ bytes2 e.age
    ++ byte1 (handoverCode (e.handover.map (·.kind)))
    ++ bytes2 ((e.handover.map (·.start.toNat)).getD 0) ++ byte1 ((e.handover.map (·.code)).getD 0)
    ++ flagByte r.isSome ++ bytes2 ((r.map (·.serial.toNat)).getD 0)
    ++ bytes2 ((r.map (·.startLevel)).getD 0) ++ bytes2 ((r.map (·.target)).getD 0)
    ++ bytes2 ((r.map (·.start.toNat)).getD 0) ++ bytes2 ((r.map (·.ramp)).getD 0)
    ++ byte1 e.conditions.toNat ++ byte1 e.zoneList.length
    ++ (List.range 8).flatMap (fun i => pairBytes (e.zoneList.getD i (0, 0))) ++ bytes2 e.heard

/-- A zone state's code (R181). -/
def ZoneState.code : ZoneState → Nat
  | .wait => 0
  | .shared => 1
  | .yielding => 2
  | .filling => 3
  | .solo => 4

/-- READ item 3: zone record z (R49, R181). -/
def readZoneRecord (z : Zone) : List Byte :=
  let r := z.ramp
  flagByte z.enabled ++ byte1 z.neighbour ++ byte1 z.configuredShape ++ byte1 z.agreedShape
    ++ byte1 z.shapeInUse ++ byte1 (bit z.mismatch 0 + bit z.oneSided 1) ++ byte1 z.state.code
    ++ byte1 z.m ++ flagByte r.isSome ++ byte1 ((r.map (·.base)).getD 0)
    ++ bytes2 ((r.map (·.start.toNat)).getD 0) ++ byte1 ((r.map (·.step)).getD 0)
    ++ flagByte ((r.map (·.up)).getD false)

/-- READ item 4: the fault capture record and the overflow count (R181). -/
def readFaults (s : State) : List Byte :=
  match s.faults.record with
  | some r => flagByte true ++ byte1 r.kind.code ++ bytes2 r.frame.toNat ++ byte1 r.state.code
      ++ bytes2 r.detail ++ byte1 s.faults.overflow
  | none => List.replicate 7 0 ++ byte1 s.faults.overflow

/-- READ item 5: the inputs, the capacity, the black code and the conditions (R163, R181). -/
def readPhoto (s : State) : List Byte :=
  s.photo.inputs.flatMap (fun r => flagByte r.enabled ++ bytes2 r.average ++ byte1 r.streak)
    ++ bytes2 s.photo.capacity ++ bytes2 s.photo.black
    ++ byte1 (bit s.photo.lampLow 0 + bit s.photo.thermal 1)

/-- READ item 6: Sapp, the scale target, Dapp, F and the station state (R181). -/
def readLevelItem (s : State) : List Byte :=
  bytes2 s.level.sapp ++ bytes2 s.level.scaleTarget ++ bytes2 s.level.dapp ++ byte1 s.life.fade
    ++ byte1 s.life.state.code

/-- A READ of an item that ignores its index (R181): the data answered DONE, and no state changed. An item
code above 6 is BAD_ARG. -/
def actRead (bytes : State → List Byte) (o : Order) (s : State) : Settled :=
  if 6 < byteAt o.args 0 then refuse .badArg s
  else { result := .done, bytes := bytes s, after := s }

/-- READ of a peer entry: an index outside 1..31 is BAD_ARG (R103, R181). -/
def actReadPeer (o : Order) (s : State) : Settled :=
  let n := byteAt o.args 1
  if 6 < byteAt o.args 0 ∨ n < 1 ∨ 31 < n then refuse .badArg s
  else { result := .done, bytes := readPeer (s.peer n), after := s }

/-- READ of a zone record: an index above 7 is BAD_ARG (R49, R181). -/
def actReadZone (o : Order) (s : State) : Settled :=
  let z := byteAt o.args 1
  if 6 < byteAt o.args 0 ∨ 7 < z then refuse .badArg s
  else { result := .done, bytes := readZoneRecord (s.zone z), after := s }

/-! ### Orders with no code to act on (R178, R179) -/

/-- An ORDER shorter than 5 bytes is dropped and DISCARD counted (R178). -/
def dropShortOrder (s : State) : State :=
  match s.bus.rxQueue with
  | [] => s
  | m :: _ =>
    if m.kind = .order ∧ s.takesOrders ∧ m.payload.length < 5 then (popQueue s).count .discard else s

/-- An order code outside 1..10 (R179). -/
def unknownCode (o : Order) : Bool := decide (o.code < 1) || decide (10 < o.code)

/-- An addressed order of an unknown code is answered UNKNOWN (R179). -/
def carryUnknown (_m : Message) (o : Order) (s : State) : State := answerOrder o .unknown [] s

end Sys2Proof.Machine
end

