-- ==== Sys2Proof/Machine/Settle.lean ====
section
/-! DEFINITION. Steps due: those that a frame mark makes due are taken by their own command or, at the
latest, before any other command (assumption 3); and how a command runs. -/

namespace Sys2Proof.Machine

/-- A due step is taken. -/
def perform (d : DueStep) (s : State) : State :=
  match d with
  | .listenPeriodEnd => if s.life.state = .listen then endListen s else s
  | .rejoin => if s.life.state = .dark ∧ lightingAllowed s then enterJoining .rejoin s else s
  | .peerLost n => losePeer n s
  | .peerPurge n => purgePeer n s
  | .announcement => announce s
  | .holdLimit => holdTest s

/-- A due step's own command: the step is taken if it is due, and nothing else is (assumption 2). -/
def takeDue (d : DueStep) (s : State) : State :=
  if s.resetPhase = .running ∧ d ∈ s.due then
    refreshTx (perform d (s.setDue (s.due.erase d)))
  else s

/-- Everything due is taken before another command: the steps due at the last mark, in the order of the list
and each as its own command takes it, then the reset of a RESTART that has been released (assumptions 3,
20). -/
def settle (s : State) : State :=
  let t := s.due.foldl (fun t d => takeDue d t) s
  if t.restartDue then restartReset t else t

/-- A command's effect in a part that runs: what is due first, then the effect, then the transmitter's
own moves. A part without supply or held in reset does nothing (R164, assumption 9). -/
def whenRunning (f : State → State) (s : State) : State :=
  if s.resetPhase = .running then refreshTx (f (settle s)) else s

/-- An outside event at time t: what is due first, then time runs on to t, then the effect. -/
def atTime (t : Nat) (f : State → State) (s : State) : State :=
  whenRunning (fun s => f (advanceTo t s)) s

/-- The end of a running time: when the deadline is set, time runs on to it and the effect follows; with
none running nothing happens (assumption 2). -/
def atDeadline (deadline : State → Option Nat) (f : State → State) (s : State) : State :=
  whenRunning (fun s =>
    match deadline s with
    | some t => f (advanceTo t s)
    | none => s) s

end Sys2Proof.Machine
end

