-- ==== Sys2Proof/Machine/BusCommands.lean ====
section
/-! DEFINITION. The commands of the peer bus: characters, start bits and dispatch in, access and messages
out (R89 to R92, R110 to R124). -/

namespace Sys2Proof.Machine

/-- CHARACTER_RECEIVED (R104, R110, R112). -/
def execCharacterReceived (t : Nat) (bits : CharacterBits) (s : State) : Host.Outcome State Fault Refusal :=
  .next (atTime t (receive bits) s)

/-- The time at which the assembler's timeout expires: 22 bit times after the last start bit (R111). -/
def State.assemblerDeadline (s : State) : Option Nat :=
  s.bus.assembly.map fun a => a.lastStart + assemblerTimeout * s.bitTime

/-- ASSEMBLER_TIMEOUT (R111). -/
def execAssemblerTimeout (s : State) : Host.Outcome State Fault Refusal :=
  .next (atDeadline State.assemblerDeadline breakMessage s)

/-- STATUS_APPLIED (R89, R90, R92, R114). -/
def execStatusApplied (s : State) : Host.Outcome State Fault Refusal := .next (whenRunning dispatchStatus s)

/-- JOIN_APPLIED (R89, R91, R92, R114). -/
def execJoinApplied (s : State) : Host.Outcome State Fault Refusal :=
  .next (whenRunning (dispatchNotice .join .join) s)

/-- LEAVE_APPLIED (R89, R91, R92, R114). -/
def execLeaveApplied (s : State) : Host.Outcome State Fault Refusal :=
  .next (whenRunning (dispatchNotice .leave .leave) s)

/-- START_BIT (R111, R117, R118). -/
def execStartBit (t : Nat) (s : State) : Host.Outcome State Fault Refusal :=
  .next (atTime t (fun s => foreignStart s.now s) s)

/-- The time at which the transmitter's state ends by itself: the gap in force, the back-off that
remains, the 2-bit lead, or the length of the message on the line (R117 to R119, R123). -/
def State.txDeadline (s : State) (st : TxState) : Option Nat :=
  if s.bus.txState = st then
    match st with
    | .gap => some (s.bus.lastStart + s.bus.gap * s.bitTime)
    | .backoff => some (s.bus.txSince + s.bus.backoff * s.bitTime)
    | .lead => some (s.bus.txSince + 2 * s.bitTime)
    | .sending => some (s.bus.txSince + 11 * s.bus.message.length * s.bitTime)
    | .idle => none
  else none

/-- GAP_ELAPSED (R117, R118). -/
def execGapElapsed (s : State) : Host.Outcome State Fault Refusal :=
  .next (atDeadline (·.txDeadline .gap) endGap s)

/-- BACKOFF_ELAPSED (R118). -/
def execBackoffElapsed (s : State) : Host.Outcome State Fault Refusal :=
  .next (atDeadline (·.txDeadline .backoff) enterLead s)

/-- LEAD_START (R119). -/
def execLeadStart (s : State) : Host.Outcome State Fault Refusal :=
  .next (atDeadline (·.txDeadline .lead) beginLead s)

/-- COLLISION (R121, R122, R124). -/
def execCollision (t : Nat) (s : State) : Host.Outcome State Fault Refusal :=
  .next (atTime t (fun s => if s.bus.txState = .sending then collide s else s) s)

/-- MESSAGE_SENT (R123). -/
def execMessageSent (s : State) : Host.Outcome State Fault Refusal :=
  .next (atDeadline (·.txDeadline .sending) messageEnds s)

end Sys2Proof.Machine
end

