-- ==== Sys2Proof/Machine/DueCommands.lean ====
section
/-! DEFINITION. The commands that a frame mark makes due (R54, R67, R93, R98, R149; assumption 3). -/

namespace Sys2Proof.Machine

/-- LISTEN_PERIOD_END (R54). -/
def execListenPeriodEnd (s : State) : Host.Outcome State Fault Refusal := .next (takeDue .listenPeriodEnd s)

/-- REJOIN (R67). -/
def execRejoin (s : State) : Host.Outcome State Fault Refusal := .next (takeDue .rejoin s)

/-- PEER_LOST (R93). -/
def execPeerLost (n : Nat) (s : State) : Host.Outcome State Fault Refusal := .next (takeDue (.peerLost n) s)

/-- PEER_PURGE (R93). -/
def execPeerPurge (n : Nat) (s : State) : Host.Outcome State Fault Refusal := .next (takeDue (.peerPurge n) s)

/-- ANNOUNCEMENT_DUE (R98). -/
def execAnnouncementDue (s : State) : Host.Outcome State Fault Refusal := .next (takeDue .announcement s)

/-- HOLD_LIMIT_PASSED (R149). -/
def execHoldLimitPassed (s : State) : Host.Outcome State Fault Refusal := .next (takeDue .holdLimit s)

end Sys2Proof.Machine
end

