-- ==== Sys2Proof/Machine/FrameLineCommands.lean ====
section
/-! DEFINITION. The commands of the frame line, the frame timer, the pace line and the output link
(R126 to R140, R151). -/

namespace Sys2Proof.Machine

/-- The frame line takes a level. -/
abbrev State.setLine (s : State) (low : Bool) : State := s.setTimer { s.timer with lineLow := low }

/-- An edge of the frame line at time t, to the level `low`: the part's own part in it is `f`. The line is
outside the part, so its level is noted also while a reset holds the part or it has no supply, where the
edge does nothing else (R132, R135, R164; assumption 18). -/
def lineEdge (t : Nat) (low : Bool) (f : State → State) (s : State) : State :=
  if s.resetPhase = .running then atTime t (fun s => f (s.setLine low)) s
  else (s.setNow (max t s.now)).setLine low

/-- FRAME_LINE_FALL (R129): in START the edge is not judged. -/
def execFrameLineFall (t : Nat) (s : State) : Host.Outcome State Fault Refusal :=
  .next (lineEdge t true (fun s => if s.life.state = .start then s else takeFall s) s)

/-- FRAME_LINE_RISE (R132, R135). -/
def execFrameLineRise (t : Nat) (s : State) : Host.Outcome State Fault Refusal :=
  .next (lineEdge t false (fun s => if s.life.state = .start then s else takeRise s) s)

/-- The time of the frame timer's expiry; in START the timer is stopped (R127). -/
def State.timerDeadline (s : State) : Option Nat :=
  if s.life.state = .start then none else s.timer.expiry

/-- FRAME_TIMER_EXPIRY (R127, R128, R134). -/
def execFrameTimerExpiry (s : State) : Host.Outcome State Fault Refusal :=
  .next (atDeadline State.timerDeadline takeExpiry s)

/-- ASSERTION_END (R128). -/
def execAssertionEnd (s : State) : Host.Outcome State Fault Refusal :=
  .next (atDeadline (·.timer.assertion) (fun s => s.setTimer { s.timer with assertion := none }) s)

/-- The first moment at which the line has been low for more than 100 us in NORMAL (R132,
assumption 19). -/
def State.stuckDeadline (s : State) : Option Nat :=
  if s.life.state ≠ .start ∧ s.timer.lineState = .normal then
    s.timer.lowSince.map (· + 100 * Config.microsecond + 1)
  else none

/-- LINE_STUCK (R132). -/
def execLineStuck (s : State) : Host.Outcome State Fault Refusal :=
  .next (atDeadline State.stuckDeadline becomeStuck s)

/-- The moment at which the line has been high for one P in STUCK (R135). -/
def State.recoveryDeadline (s : State) : Option Nat :=
  if s.timer.lineState = .stuck then s.timer.highSince.map (· + s.periodNs) else none

/-- LINE_RECOVERY (R135). -/
def execLineRecovery (s : State) : Host.Outcome State Fault Refusal :=
  .next (atDeadline State.recoveryDeadline recoverLine s)

/-- PACE_PULSE_END (R140). -/
def execPacePulseEnd (s : State) : Host.Outcome State Fault Refusal :=
  .next (atDeadline (·.timer.pace) (fun s => s.setTimer { s.timer with pace := none }) s)

/-- The moment at which the last pixel of the raster in flight has left (R151). -/
def State.rasterEnd (s : State) : Option Nat :=
  s.encoder.raster.map fun r => r.began + 2 * rasterSize s

/-- RASTER_DONE (R151): time runs on to the end of the raster, which sends the rest of it and closes it. -/
def execRasterDone (s : State) : Host.Outcome State Fault Refusal :=
  .next (atDeadline State.rasterEnd (fun s => s) s)

end Sys2Proof.Machine
end

