-- ==== Sys2Proof/Machine/LinkCommands.lean ====
section
/-! DEFINITION. The commands of the video input link and of the Photometer (R141 to R148, R156 to R162). -/

namespace Sys2Proof.Machine

/-- A link event at time t, where the link is taken (R141). -/
def linkEvent (t : Nat) (f : State → State) (s : State) : State :=
  atTime t (fun s => if s.takesLink then f s else s) s

/-- FRAME_START (R143). -/
def execFrameStart (t : Nat) (s : State) : Host.Outcome State Fault Refusal :=
  .next (linkEvent t takeFrameStart s)

/-- LINE (R144). -/
def execLine (t : Nat) (pixels : List Pixel) (s : State) : Host.Outcome State Fault Refusal :=
  .next (linkEvent t (takeLine pixels) s)

/-- FRAME_END (R145). -/
def execFrameEnd (t : Nat) (s : State) : Host.Outcome State Fault Refusal :=
  .next (linkEvent t takeFrameEnd s)

/-- INPUT_LOSS_TIMEOUT (R148). -/
def execInputLossTimeout (s : State) : Host.Outcome State Fault Refusal :=
  .next (atDeadline (·.input.lossDeadline) loseInput s)

/-- The time at which the scan in progress completes (R156). -/
def State.scanDeadline (s : State) : Option Nat := s.scan.map (·.began + s.scanTime)

/-- The scan in progress runs to its length and is complete; `codes` are what the converter gives for the
samples from here on (assumption 13). With no scan in progress nothing happens (assumption 2). -/
def finishScan (codes : List (BitVec 12)) (s : State) : State :=
  match s.scanDeadline with
  | some t => completeScan (advanceTo t (s.setConverter (s.converter ++ codes)))
  | none => s

/-- SCAN_COMPLETE (R156). -/
def execScanComplete (codes : List (BitVec 12)) (s : State) : Host.Outcome State Fault Refusal :=
  .next (whenRunning (finishScan codes) s)

end Sys2Proof.Machine
end

