-- ==== Sys2Proof/Machine/LoadCommands.lean ====
section
/-! DEFINITION. The commands of the load: EEPROM_ACKNOWLEDGE, EEPROM_READY_TIMEOUT, HEADER_CHECK,
SECTION_CHECK, LOAD_FINISHED (R168 to R172), and of STORE's write: STORE_TRANSFER_END, STORE_FLAG_CLEAR
(R175, R176). -/

namespace Sys2Proof.Machine

/-- The time from which the loader has waited for the EEPROM, while it waits (R168). -/
def State.waitingSince (s : State) : Option Nat :=
  match s.loader.phase with
  | .waiting since => some since
  | .idle | .header | .sections _ | .ended => none

/-- EEPROM_ACKNOWLEDGE (R168). -/
def execEepromAcknowledge (t : Nat) (s : State) : Host.Outcome State Fault Refusal :=
  .next (atTime t (fun s => if s.waitingSince.isSome then eepromReady s else s) s)

/-- EEPROM_READY_TIMEOUT (R168): 20 ms without an acknowledgement. -/
def execEepromReadyTimeout (s : State) : Host.Outcome State Fault Refusal :=
  .next (atDeadline (fun s => s.waitingSince.map (· + 20 * Config.millisecond)) blankImage s)

/-- HEADER_CHECK (R169, R170). -/
def execHeaderCheck (t : Nat) (s : State) : Host.Outcome State Fault Refusal :=
  .next (atTime t (fun s => if s.loader.phase = .header then checkHeader s else s) s)

/-- SECTION_CHECK (R171). -/
def execSectionCheck (t : Nat) (s : State) : Host.Outcome State Fault Refusal :=
  .next (atTime t checkSection s)

/-- LOAD_FINISHED (R172). -/
def execLoadFinished (t : Nat) (s : State) : Host.Outcome State Fault Refusal :=
  .next (atTime t (fun s => if s.loader.phase = .ended then finishLoad s else s) s)

/-- STORE_TRANSFER_END (R175, R176). -/
def execStoreTransferEnd (t : Nat) (s : State) : Host.Outcome State Fault Refusal :=
  .next (atTime t endTransfer s)

/-- The time at which the store-in-flight flag clears: 5 ms after the write began (R175). -/
def State.storeDeadline (s : State) : Option Nat :=
  if s.loader.storeInFlight then some (s.loader.storeBegan + 5 * Config.millisecond) else none

/-- STORE_FLAG_CLEAR (R175). -/
def execStoreFlagClear (s : State) : Host.Outcome State Fault Refusal :=
  .next (atDeadline State.storeDeadline clearStoreFlag s)

end Sys2Proof.Machine
end

