-- ==== Sys2Proof/Machine/OrderCommands.lean ====
section
/-! DEFINITION. The commands of the console's orders, each taken from the head of the receive queue
(R177 to R183). -/

namespace Sys2Proof.Machine

/-- ORDER_TOO_SHORT (R178). -/
def execOrderTooShort (s : State) : Host.Outcome State Fault Refusal := .next (whenRunning dropShortOrder s)

/-- ORDER_UNKNOWN (R179). -/
def execOrderUnknown (s : State) : Host.Outcome State Fault Refusal :=
  .next (whenRunning (withOrder unknownCode carryUnknown) s)

/-- LEVEL (R82). -/
def execLevel (s : State) : Host.Outcome State Fault Refusal :=
  .next (whenRunning (withOrder (hasCode 1) (settleOrder actLevel)) s)

/-- DARK (R56). -/
def execDark (s : State) : Host.Outcome State Fault Refusal :=
  .next (whenRunning (withOrder (hasCode 2) (settleOrder actDark)) s)

/-- LIGHT (R56). -/
def execLight (s : State) : Host.Outcome State Fault Refusal :=
  .next (whenRunning (withOrder (hasCode 3) (settleOrder actLight)) s)

/-- PATTERN (R13). -/
def execPattern (s : State) : Host.Outcome State Fault Refusal :=
  .next (whenRunning (withOrder (hasCode 4) (settleOrder actPattern)) s)

/-- READ_START_RECORD (R181). -/
def execReadStartRecord (s : State) : Host.Outcome State Fault Refusal :=
  .next (whenRunning (withOrder (readsItem 0) (settleOrder (actRead readStart))) s)

/-- READ_COUNTERS (R181). -/
def execReadCounters (s : State) : Host.Outcome State Fault Refusal :=
  .next (whenRunning (withOrder (readsItem 1) (settleOrder (actRead readCounterBlock))) s)

/-- READ_PEER_ENTRY (R103, R181). -/
def execReadPeerEntry (s : State) : Host.Outcome State Fault Refusal :=
  .next (whenRunning (withOrder (readsItem 2) (settleOrder actReadPeer)) s)

/-- READ_ZONE (R49, R181). -/
def execReadZone (s : State) : Host.Outcome State Fault Refusal :=
  .next (whenRunning (withOrder (readsItem 3) (settleOrder actReadZone)) s)

/-- READ_FAULT_RECORD (R181). -/
def execReadFaultRecord (s : State) : Host.Outcome State Fault Refusal :=
  .next (whenRunning (withOrder (readsItem 4) (settleOrder (actRead readFaults))) s)

/-- READ_PHOTOMETER (R163, R181). -/
def execReadPhotometer (s : State) : Host.Outcome State Fault Refusal :=
  .next (whenRunning (withOrder (readsItem 5) (settleOrder (actRead readPhoto))) s)

/-- READ_LEVELS (R181). -/
def execReadLevels (s : State) : Host.Outcome State Fault Refusal :=
  .next (whenRunning (withOrder (readsItem 6) (settleOrder (actRead readLevelItem))) s)

/-- CLEAR (R183). -/
def execClear (s : State) : Host.Outcome State Fault Refusal :=
  .next (whenRunning (withOrder (hasCode 6) (settleOrder actClear)) s)

/-- STORE (R174). -/
def execStore (s : State) : Host.Outcome State Fault Refusal :=
  .next (whenRunning (withOrder (hasCode 7) (settleOrder actStore)) s)

/-- RESTART (R182). -/
def execRestart (s : State) : Host.Outcome State Fault Refusal :=
  .next (whenRunning (withOrder (hasCode 8) carryRestart) s)

/-- SLEEP (R69). -/
def execSleep (s : State) : Host.Outcome State Fault Refusal :=
  .next (whenRunning (withOrder (hasCode 9) (settleOrder actSleep)) s)

/-- WAKE (R71). -/
def execWake (s : State) : Host.Outcome State Fault Refusal :=
  .next (whenRunning (withOrder (hasCode 10) (settleOrder actWake)) s)

end Sys2Proof.Machine
end

