-- ==== Sys2Proof/Machine/ResetCommands.lean ====
section
/-! DEFINITION. The commands of supply and reset: POWER_ON, PIN_RESET, RESET_RELEASE, RESTART_RESET and
POWER_LOST (R164, R165, R176, R182). -/

namespace Sys2Proof.Machine

/-- Time runs on to the event of supply or reset at time t; a part that runs first takes what is due
(assumption 3). -/
def runTo (t : Nat) (s : State) : State :=
  advanceTo t (if s.resetPhase = .running then settle s else s)

/-- POWER_ON (R164). Supply that comes up in a part not known to be without it has been lost before
(R176, assumption 7). -/
def execPowerOn (t : Nat) (s : State) : Host.Outcome State Fault Refusal :=
  let s' := runTo t s
  .next (holdReset .power (if s.resetPhase = .unpowered then s' else losePower s'))

/-- PIN_RESET (R164): a transfer of a STORE still running is cut and leaves the old contents (R176). The
reset cause is PIN also when the line is pulled low while a power-on reset still holds the part: the spec
names no cause for resets that overlap, and the later one to begin is taken (assumption 9, DESIGN
CHOICE). -/
def execPinReset (t : Nat) (s : State) : Host.Outcome State Fault Refusal :=
  .next (if s.resetPhase = .unpowered then s else holdReset .pin (runTo t s))

/-- RESET_RELEASE (R164, R165). -/
def execResetRelease (t : Nat) (straps : Straps) (s : State) : Host.Outcome State Fault Refusal :=
  .next (if s.resetPhase = .held then releaseReset straps (advanceTo t s) else s)

/-- RESTART_RESET (R182): the reset of a RESTART that has been released. -/
def execRestartReset (s : State) : Host.Outcome State Fault Refusal :=
  .next (if s.resetPhase = .running ∧ s.restartDue = true then settle s else s)

/-- POWER_LOST (R176): the EEPROM's page as R176 says; what the part held is gone (assumption 7). -/
def execPowerLost (t : Nat) (s : State) : Host.Outcome State Fault Refusal :=
  .next (if s.resetPhase = .unpowered then s
    else (resetBlocks .power (losePower (runTo t s))).setResetPhase .unpowered)

end Sys2Proof.Machine
end

