-- ==== Sys2Proof/Machine/Dispatch.lean ====
section
/-! DEFINITION. Every command's meaning: one arm for each row of spec/opcode_table.json. -/

namespace Sys2Proof.Machine

/-- The effect of a command on everything but the queue of commands. -/
def exec (i : Instr) (s : State) : Host.Outcome State Fault Refusal :=
  match i with
  | .powerOn t => Sys2Proof.Machine.execPowerOn t s
  | .pinReset t => Sys2Proof.Machine.execPinReset t s
  | .resetRelease t straps => Sys2Proof.Machine.execResetRelease t straps s
  | .eepromAcknowledge t => Sys2Proof.Machine.execEepromAcknowledge t s
  | .eepromReadyTimeout => Sys2Proof.Machine.execEepromReadyTimeout s
  | .headerCheck t => Sys2Proof.Machine.execHeaderCheck t s
  | .sectionCheck t => Sys2Proof.Machine.execSectionCheck t s
  | .loadFinished t => Sys2Proof.Machine.execLoadFinished t s
  | .frameLineFall t => Sys2Proof.Machine.execFrameLineFall t s
  | .frameLineRise t => Sys2Proof.Machine.execFrameLineRise t s
  | .frameTimerExpiry => Sys2Proof.Machine.execFrameTimerExpiry s
  | .assertionEnd => Sys2Proof.Machine.execAssertionEnd s
  | .lineStuck => Sys2Proof.Machine.execLineStuck s
  | .lineRecovery => Sys2Proof.Machine.execLineRecovery s
  | .pacePulseEnd => Sys2Proof.Machine.execPacePulseEnd s
  | .rasterDone => Sys2Proof.Machine.execRasterDone s
  | .listenPeriodEnd => Sys2Proof.Machine.execListenPeriodEnd s
  | .rejoin => Sys2Proof.Machine.execRejoin s
  | .peerLost n => Sys2Proof.Machine.execPeerLost n s
  | .peerPurge n => Sys2Proof.Machine.execPeerPurge n s
  | .announcementDue => Sys2Proof.Machine.execAnnouncementDue s
  | .holdLimitPassed => Sys2Proof.Machine.execHoldLimitPassed s
  | .inputLossTimeout => Sys2Proof.Machine.execInputLossTimeout s
  | .frameStart t => Sys2Proof.Machine.execFrameStart t s
  | .line t pixels => Sys2Proof.Machine.execLine t pixels s
  | .frameEnd t => Sys2Proof.Machine.execFrameEnd t s
  | .scanComplete codes => Sys2Proof.Machine.execScanComplete codes s
  | .characterReceived t bits => Sys2Proof.Machine.execCharacterReceived t bits s
  | .assemblerTimeout => Sys2Proof.Machine.execAssemblerTimeout s
  | .statusApplied => Sys2Proof.Machine.execStatusApplied s
  | .joinApplied => Sys2Proof.Machine.execJoinApplied s
  | .leaveApplied => Sys2Proof.Machine.execLeaveApplied s
  | .orderTooShort => Sys2Proof.Machine.execOrderTooShort s
  | .orderUnknown => Sys2Proof.Machine.execOrderUnknown s
  | .level => Sys2Proof.Machine.execLevel s
  | .dark => Sys2Proof.Machine.execDark s
  | .light => Sys2Proof.Machine.execLight s
  | .pattern => Sys2Proof.Machine.execPattern s
  | .readStartRecord => Sys2Proof.Machine.execReadStartRecord s
  | .readCounters => Sys2Proof.Machine.execReadCounters s
  | .readPeerEntry => Sys2Proof.Machine.execReadPeerEntry s
  | .readZone => Sys2Proof.Machine.execReadZone s
  | .readFaultRecord => Sys2Proof.Machine.execReadFaultRecord s
  | .readPhotometer => Sys2Proof.Machine.execReadPhotometer s
  | .readLevels => Sys2Proof.Machine.execReadLevels s
  | .clear => Sys2Proof.Machine.execClear s
  | .store => Sys2Proof.Machine.execStore s
  | .restart => Sys2Proof.Machine.execRestart s
  | .restartReset => Sys2Proof.Machine.execRestartReset s
  | .sleep => Sys2Proof.Machine.execSleep s
  | .wake => Sys2Proof.Machine.execWake s
  | .storeTransferEnd t => Sys2Proof.Machine.execStoreTransferEnd t s
  | .storeFlagClear => Sys2Proof.Machine.execStoreFlagClear s
  | .gapElapsed => Sys2Proof.Machine.execGapElapsed s
  | .backoffElapsed => Sys2Proof.Machine.execBackoffElapsed s
  | .leadStart => Sys2Proof.Machine.execLeadStart s
  | .collision t => Sys2Proof.Machine.execCollision t s
  | .messageSent => Sys2Proof.Machine.execMessageSent s
  | .startBit t => Sys2Proof.Machine.execStartBit t s
  | .powerLost t => Sys2Proof.Machine.execPowerLost t s

end Sys2Proof.Machine
end

