-- ==== Sys2Proof/Safety.lean ====
section
/-! DEFINITION. The terms in which statements about the 724 are made: which commands wait for what is
due, when nothing is due, and the invariants that every step keeps. -/

open Sys2Proof.Machine

namespace Sys2Proof

/-- A command that first takes everything due (assumption 3): every command but RESET_RELEASE, which a part
that runs does not take, RESTART_RESET, and the six that take one due step. -/
def Instr.settlesFirst : Instr → Bool
  | .resetRelease _ _ | .restartReset | .listenPeriodEnd
  | .rejoin | .peerLost _ | .peerPurge _ | .announcementDue | .holdLimitPassed => false
  | .powerOn _ | .pinReset _ | .powerLost _ | .eepromAcknowledge _ | .eepromReadyTimeout
  | .headerCheck _ | .sectionCheck _ | .loadFinished _ | .frameLineFall _ | .frameLineRise _
  | .frameTimerExpiry | .assertionEnd | .lineStuck
  | .lineRecovery | .pacePulseEnd | .rasterDone | .inputLossTimeout | .frameStart _ | .line _ _
  | .frameEnd _ | .scanComplete _ | .characterReceived _ _ | .assemblerTimeout | .statusApplied
  | .joinApplied | .leaveApplied | .orderTooShort | .orderUnknown | .level | .dark | .light | .pattern
  | .readStartRecord | .readCounters | .readPeerEntry | .readZone | .readFaultRecord | .readPhotometer
  | .readLevels | .clear | .store | .restart | .sleep | .wake | .storeTransferEnd _ | .storeFlagClear
  | .gapElapsed | .backoffElapsed | .leadStart | .collision _ | .messageSent | .startBit _ => true

/-- A command that reaches a part without supply, or held in reset: those of supply and reset (R164), and the
edges of the frame line, whose level is noted (assumption 18). -/
def Instr.reachesIdlePart : Instr → Bool
  | .powerOn _ | .pinReset _ | .resetRelease _ _ | .powerLost _ | .frameLineFall _
  | .frameLineRise _ => true
  | .restartReset | .listenPeriodEnd | .rejoin | .peerLost _ | .peerPurge _ | .announcementDue
  | .holdLimitPassed | .eepromAcknowledge _ | .eepromReadyTimeout | .headerCheck _ | .sectionCheck _
  | .loadFinished _ | .frameTimerExpiry | .assertionEnd
  | .lineStuck | .lineRecovery | .pacePulseEnd | .rasterDone | .inputLossTimeout | .frameStart _
  | .line _ _ | .frameEnd _ | .scanComplete _ | .characterReceived _ _ | .assemblerTimeout
  | .statusApplied | .joinApplied | .leaveApplied | .orderTooShort | .orderUnknown | .level | .dark
  | .light | .pattern | .readStartRecord | .readCounters | .readPeerEntry | .readZone
  | .readFaultRecord | .readPhotometer | .readLevels | .clear | .store | .restart | .sleep | .wake
  | .storeTransferEnd _ | .storeFlagClear | .gapElapsed | .backoffElapsed | .leadStart | .collision _
  | .messageSent | .startBit _ => false

/-- The orders that a command of the console takes from the head of the queue (R178, R179, R181): those of
its code, for a READ those of its item, for ORDER_UNKNOWN those of no code. A READ with a wrong argument
length or an item above 6 is taken by any of the seven (assumption 15). -/
def Instr.takesOrder : Instr → Order → Bool
  | .orderUnknown => unknownCode
  | .level => hasCode 1
  | .dark => hasCode 2
  | .light => hasCode 3
  | .pattern => hasCode 4
  | .readStartRecord => readsItem 0
  | .readCounters => readsItem 1
  | .readPeerEntry => readsItem 2
  | .readZone => readsItem 3
  | .readFaultRecord => readsItem 4
  | .readPhotometer => readsItem 5
  | .readLevels => readsItem 6
  | .clear => hasCode 6
  | .store => hasCode 7
  | .restart => hasCode 8
  | .sleep => hasCode 9
  | .wake => hasCode 10
  | .powerOn _ | .pinReset _ | .resetRelease _ _ | .powerLost _ | .restartReset | .listenPeriodEnd
  | .rejoin | .peerLost _ | .peerPurge _ | .announcementDue | .holdLimitPassed | .eepromAcknowledge _
  | .eepromReadyTimeout | .headerCheck _ | .sectionCheck _ | .loadFinished _ | .frameLineFall _
  | .frameLineRise _ | .frameTimerExpiry | .assertionEnd | .lineStuck | .lineRecovery | .pacePulseEnd
  | .rasterDone | .inputLossTimeout | .frameStart _ | .line _ _ | .frameEnd _ | .scanComplete _
  | .characterReceived _ _ | .assemblerTimeout | .statusApplied | .joinApplied | .leaveApplied
  | .orderTooShort | .storeTransferEnd _ | .storeFlagClear | .gapElapsed | .backoffElapsed
  | .leadStart | .collision _ | .messageSent | .startBit _ => fun _ => false

/-- The command of a due step (assumption 3). -/
def Machine.DueStep.command : DueStep → Instr
  | .listenPeriodEnd => .listenPeriodEnd
  | .rejoin => .rejoin
  | .peerLost n => .peerLost n
  | .peerPurge n => .peerPurge n
  | .announcement => .announcementDue
  | .holdLimit => .holdLimitPassed

end Sys2Proof

namespace Sys2Proof.Machine

/-- The part runs and nothing is due: no step of the last mark, and no reset of a RESTART. -/
abbrev State.calm (s : State) : Prop :=
  s.resetPhase = .running ∧ s.due = [] ∧ s.restartDue = false

/-- The ORDER at the head of the queue, read (R178), when the Console Agent can take it (R177). -/
def State.orderAtHead (s : State) : Option Order :=
  match s.bus.rxQueue with
  | m :: _ => if m.kind = .order ∧ s.takesOrders = true then readOrder m.payload else none
  | [] => none

/-- The order at the head of the queue is the one that command c takes, and it names this station. -/
abbrev State.ordered (s : State) (c : Instr) (o : Order) : Prop :=
  s.calm ∧ s.orderAtHead = some o ∧ c.takesOrder o = true ∧ o.addresses s.stn = true

/-! ### Invariants -/

/-- The EEPROM is in canonical form. -/
abbrev EepromCanonical (s : State) : Prop := s.eeprom.wf

/-- What the station state says of F, the fade ramp and the own handover record (R50, R58, R60). -/
abbrev Lifecycle.agrees (l : Lifecycle) : Prop :=
  l.fade ≤ 64 ∧ (l.state = .lit → l.fade = 64) ∧ (l.state.inSky = false → l.fade = 0)
    ∧ (l.fadeRamp.isSome = true ↔ l.state = .joining ∨ l.state = .leaving)
    ∧ (l.handover.isSome = true ↔ l.state = .joining ∨ l.state = .leaving)
    ∧ (∀ r ∈ l.fadeRamp, r.base ≤ 64 ∧ (r.up = true ↔ l.state = .joining))
    ∧ ∀ h ∈ l.handover, h.kind = .join ↔ l.state = .joining

/-- A part that does not run, and one that loads, is in START, and the measurement runs in MEASURE alone
(R52, R53, R164). -/
abbrev StartsInOrder (s : State) : Prop :=
  (s.resetPhase ≠ .running → s.life.state = .start) ∧
    (s.loader.phase ≠ .idle → s.life.state = .start) ∧
    (s.photo.measurement ≠ none → s.life.state = .measure)

/-- The scan in progress runs only in a station that scans, and it has the samples and the round that the time
since its beginning gives it (R154, R156, R157). -/
abbrev ScanInStep (s : State) : Prop :=
  ∀ c ∈ s.scan, s.life.state ≠ .start ∧ s.life.state ≠ .sleep
    ∧ c.samples.length = s.samplesTaken c.began s.now
    ∧ c.round = roundAfter c.samples.length s.enabledInputs

/-- The fade agrees with the station state. -/
abbrev FadeAgrees (s : State) : Prop := s.life.agrees ∧ StartsInOrder s

/-- What a zone's state says of its fill and its ramp (R28, R36); a disabled zone waits (R30). -/
abbrev Zone.agrees (z : Zone) : Prop :=
  (z.enabled = false → z.state = .wait) ∧ z.m ≤ 64
    ∧ (z.state = .shared → z.m = 0) ∧ (z.state = .solo ∨ z.state = .wait → z.m = 64)
    ∧ (z.ramp.isSome = true ↔ z.state = .yielding ∨ z.state = .filling)
    ∧ ∀ r ∈ z.ramp, r.base ≤ 64 ∧ (r.up = true ↔ z.state = .filling)

/-- The zone table agrees with the station state: out of the sky every zone waits, in it no enabled one
does (R31, R32). -/
abbrev ZonesAgree (s : State) : Prop :=
  s.zones.length = 8 ∧ StartsInOrder s ∧
  ∀ z ∈ s.zones, z.agrees ∧ (z.state = .wait ↔ (s.life.state.inSky && z.enabled) = false)

/-- Three buffers, at most one FILLING, one SHOWN and two READY; one is FILLING exactly while a frame is
in progress, and it is that frame's; a buffer's rows are listed in rising order (R142, R146). -/
abbrev BuffersAgree (s : State) : Prop :=
  s.buffers.length = 3 ∧ buffersIn .filling s.buffers ≤ 1 ∧ buffersIn .shown s.buffers ≤ 1
    ∧ buffersIn .ready s.buffers ≤ 2
    ∧ (s.input.frame = none → buffersIn .filling s.buffers = 0)
    ∧ (∀ f ∈ s.input.frame, f.buffer < 3 ∧ (s.buffer f.buffer).state = .filling)
    ∧ ∀ b ∈ s.buffers, (b.rows.map (·.1)).Pairwise (· < ·)

/-- The counters, the overflow count, the receive queue and the answer FIFO keep their bounds, and the
Photometer its four inputs (R114, R116, R154, R184, R186). -/
abbrev WithinBounds (s : State) : Prop :=
  s.photo.inputs.length = 4 ∧ (∀ v ∈ s.faults.counters.values, v ≤ 65535) ∧ s.faults.overflow ≤ 255
    ∧ s.bus.rxQueue.length ≤ 8 ∧ s.bus.answers.length ≤ 4

/-- The back-off generator is never 0 (R122). -/
abbrev GeneratorRuns (s : State) : Prop := s.bus.lfsr ≠ 0

/-- The cause set mirrors the Photometer's conditions and the hold-dark flag (R55). -/
abbrev CausesMirror (s : State) : Prop :=
  s.life.causes.lampLow = s.photo.lampLow ∧ s.life.causes.thermal = s.photo.thermal
    ∧ s.life.causes.hold = s.life.holdDark

/-- The ceiling scale and the dome level keep their ranges (R73, R78, R80). -/
abbrev LevelsInRange (s : State) : Prop :=
  s.level.scaleTarget ≤ 32768 ∧ s.level.sapp ≤ 32768 ∧ s.level.dapp ≤ 1024
    ∧ s.level.record.startLevel ≤ 1024 ∧ s.level.record.target ≤ 1024 ∧ s.level.record.ramp ≤ 1024

/-- The own number's entry is cleared, no queued message of a peer carries the own number, and a part that
does not run has heard nothing (R87, R97). -/
abbrev OwnEntryCleared (s : State) : Prop :=
  s.peers.length = 31 ∧ s.peer s.stn = .cleared
    ∧ (∀ m ∈ s.bus.rxQueue, m.kind ≠ .order → m.sender ≠ s.stn)
    ∧ (s.resetPhase ≠ .running → s.peers = clearedPeers)

end Sys2Proof.Machine
end

