-- ==== Sys2Proof/Certificates/Slice0/Obligations.lean ====
section
/-! DEFINITION. The statements for the provers. A statement about a command is made for a calm state, in
which nothing is due: `DueWorkComesBeforeOtherCommands` carries it to every other state. After its own effect
a command lets the transmitter make the moves of R118 that need no event (`refreshTx`, assumption 16,
stated by `TransmitterMovesWithItsItems`); a command that comes at a time lets the clock run on to it first
(`advanceTo`, assumption 1, stated by `RasterLeavesAsTimeRuns`). -/

open Sys2Proof Sys2Proof.Machine

/-! ### The queue and what is due -/

/-- The model's queue (assumption 4): a step takes the front command, and on an empty queue idles. -/
def Obligations.StepRunsFrontCommand : Prop :=
  (∀ (c : Instr) (rest : List Instr) (s : State), s.pending = c :: rest →
      step s = exec c { s with pending := rest })
    ∧ ∀ s : State, s.pending = [] → step s = .next s

/-- Every command answers a next state, and no command touches the queue (assumption 2: what cannot
happen in the present state changes nothing; the spec names no stop). -/
def Obligations.EveryCommandAnswersAndKeepsQueue : Prop :=
  ∀ (c : Instr) (s : State), ∃ u, exec c s = .next u ∧ u.pending = s.pending

/-- Everything due is taken before another command (assumptions 3 and 20): the steps due one by one in the order of
the list, each as its own command takes it, then the reset of a RESTART that has been released. A part with
nothing due has nothing to settle. Without supply, or held in reset, the part does nothing but take the commands of
supply and reset and note the frame line's level (R164, assumptions 9 and 18). -/
def Obligations.DueWorkComesBeforeOtherCommands : Prop :=
  (∀ (c : Instr) (s : State), c.settlesFirst = true → s.resetPhase = .running →
      (settle s).calm ∧ exec c s = exec c (settle s))
    ∧ (∀ (s : State) (d : DueStep) (rest : List DueStep), s.resetPhase = .running → s.due = d :: rest →
        ∃ u, exec d.command s = .next u ∧ u.due = rest ∧ u.resetPhase = .running ∧ settle s = settle u)
    ∧ (∀ s : State, s.resetPhase = .running → s.due = [] → s.restartDue = true →
        exec .restartReset s = .next (settle s) ∧ (settle s).loader.record.resetCause = .restart
          ∧ (settle s).life = .reset)
    ∧ (∀ s : State, s.calm → settle s = s)
    ∧ ∀ (c : Instr) (s : State), c.reachesIdlePart = false → s.resetPhase ≠ .running → exec c s = .next s

/-- R115, R118: from IDLE the transmitter enters GAP when an item is sendable (the notice, an answer or the STATUS; when each
is, `TransmitterGainsTheLine` states), and from GAP, BACKOFF and LEAD
it returns to IDLE, the driver disabled and the back-off kept, when none is; a message on the line is
not disturbed, and nothing but the transmit state moves. The moves are made at the end of the command that
gives occasion for them (assumption 16). -/
def Obligations.TransmitterMovesWithItsItems : Prop :=
  ∀ s : State,
    (s.anySendable = true ↔
      s.noticeSendable = true ∨ s.answerSendable = true ∨ s.statusSendable = true) ∧
    (s.bus.txState = .idle → s.anySendable = true →
      refreshTx s = { s with bus := { s.bus with txState := .gap, txSince := s.now } })
    ∧ (s.bus.txState = .gap ∨ s.bus.txState = .backoff ∨ s.bus.txState = .lead →
        s.anySendable = false →
        refreshTx s = { s with bus := { s.bus with
          txState := .idle, txSince := s.now,
          backoff := if s.bus.txState = .backoff
            then s.bus.backoff - (s.now - s.bus.txSince) / s.bitTime else s.bus.backoff } })
    ∧ (s.bus.txState = .sending ∨ (s.bus.txState = .idle ↔ s.anySendable = false) →
        refreshTx s = s)

/-- R1, R151: as time runs on, the pixels that come due leave the link in the physical order, each with the
code computed from the state as it stands, at one every 2 ns from the mark; once the time of the last one is past the
raster is closed, at whatever time a command comes. The scan in progress runs with the clock too (`scanUntil`, stated by
`ScanSetsAveragesCapacityAndBlack`), and nothing else changes. RASTER_DONE lets time run to that moment. (When within its
2 ns a pixel is due is assumption 12; the clock is assumption 1.) -/
def Obligations.RasterLeavesAsTimeRuns : Prop :=
  (∀ (t : Nat) (s : State), t ≤ s.now → advanceTo t s = s)
    ∧ (∀ (t : Nat) (s : State), s.now < t → s.encoder.raster = none →
        advanceTo t s = { s with
          now := t, scan := (scanUntil s t).scan, converter := (scanUntil s t).converter })
    ∧ (∀ (t : Nat) (s : State) (r : Raster), s.now < t → s.encoder.raster = some r →
        t < r.began + 2 * rasterSize s → r.next ≤ (t - r.began + 1) / 2 →
        advanceTo t s =
          { s with
            now := t, scan := (scanUntil s t).scan, converter := (scanUntil s t).converter,
            encoder := { s.encoder with
              raster := some { r with next := (t - r.began + 1) / 2 },
              sent := s.encoder.sent
                ++ (List.range' r.next ((t - r.began + 1) / 2 - r.next)).map (linkCode s) } })
    ∧ (∀ (t : Nat) (s : State) (r : Raster), s.now < t → s.encoder.raster = some r →
        r.began + 2 * rasterSize s ≤ t → r.next ≤ rasterSize s →
        advanceTo t s =
          { s with
            now := t, scan := (scanUntil s t).scan, converter := (scanUntil s t).converter,
            encoder := { s.encoder with
              raster := none, sent := [],
              closed := s.encoder.sent
                ++ (List.range' r.next (rasterSize s - r.next)).map (linkCode s) } })
    ∧ ∀ (s : State) (r : Raster) (t : Nat), s.calm → s.encoder.raster = some r →
        t = r.began + 2 * rasterSize s → s.now < t → r.next ≤ rasterSize s →
        exec .rasterDone s = .next (refreshTx
          { s with
            now := t, scan := (scanUntil s t).scan, converter := (scanUntil s t).converter,
            encoder := { s.encoder with
              raster := none, sent := [],
              closed := s.encoder.sent
                ++ (List.range' r.next (rasterSize s - r.next)).map (linkCode s) } })

/-! ### Supply and reset -/

/-- What State.reset holds for each owner, by the tables of reset values: R13, R25, R28, R29, R50, R73, R87,
R98, R110, R114, R115, R122, R126, R140, R142, R146, R151, R154, R166, R174, R177, R184, R186; and the values for the time
before the load: R155, R172. (The model's own values among them: no straps before their sample, and with them the seed of
station 0, assumption 9; the transmitter's state since the reset and no message, assumption 16; the line high, assumption
18; no report of a RESTART's answer, assumption 20; what no rule reads after a reset, assumption 21; the moment of the reset as the last start bit's time, assumption
30.) -/
def Obligations.ResetLeavesEveryOwnersTable : Prop :=
  State.reset.life = { state := .start, fade := 0, fadeRamp := none, handover := none, causes := .empty,
                       holdDark := false, sleepPending := false, listenCount := 0, darkCount := 0 }
    ∧ State.reset.level = {
        capacity := 0, scaleTarget := 32768, sapp := 32768, unset := true, dapp := 1024,
        record := { serial := 0, startLevel := 1024, target := 1024, start := 0, ramp := 0 } }
    ∧ (State.reset.patternSource = .input ∧ State.reset.flatLevel = 0)
    ∧ (∀ z, z < 8 → State.reset.zone z = {
        enabled := false, neighbour := 0, configuredShape := 0, agreedShape := 0, shapeInUse := 0,
        mismatch := false, oneSided := false, state := .wait, ramp := none, m := 64 })
    ∧ (State.reset.peers.length = 31 ∧ ∀ n, n < 32 → State.reset.peer n = .cleared)
    ∧ State.reset.schedule = { count := 0, running := false }
    ∧ State.reset.bus = {
        assembly := none, rxQueue := [], statusWanted := false, handoverWanted := false, answers := [],
        txState := .idle, item := .none, message := [], txSince := 0, attempts := 0, backoff := 0,
        gap := 24, lastStart := State.reset.now, markSince := false, deaf := false,
        lfsr := BitVec.ofNat 16 (State.reset.straps.stn.val * 2048 + 1) }
    ∧ State.reset.timer = {
        expiry := none, lineState := .normal, number := 0, unset := true, lastMark := none,
        assertion := none, lowSince := none, lowOwn := false, highSince := none, lineLow := false,
        pace := none }
    ∧ State.reset.input = { link := .idle, frame := none, startedFrames := 0, lossDeadline := none, hold := 0 }
    ∧ (∀ b, b < 3 → (State.reset.buffer b).state = .free ∧ (State.reset.buffer b).sequence = 0)
    ∧ State.reset.encoder = { raster := none, phaseX := 0, phaseY := 0, sent := [], closed := [] }
    ∧ State.reset.photo = {
        inputs := List.replicate 4 { enabled := false, average := 0, streak := 0 }, capacity := 0,
        black := 0, lampLow := false, thermal := false, measurement := none }
    ∧ State.reset.scan = none
    ∧ State.reset.straps = { stn := 0, long := false, mirx := false, flipy := false, svc := false }
    ∧ State.reset.loader = {
        record := {
          resetCause := .power, straps := State.reset.straps, blank := false, svcStrap := false,
          stationZero := false, checkFail := none, clamped := 0 },
        checks := List.replicate 6 .notChecked, phase := .idle, header := none,
        storeInFlight := false, storeBegan := 0, transfer := none, cycle := none }
    ∧ State.reset.settings.hdr.floor = 4095 ∧ State.reset.settings.period = none
    ∧ State.reset.settings.hasInput = false
    ∧ State.reset.settings.hdr.enables = [false, false, false, false]
    ∧ State.reset.console = { inHand := none, restartPending := false, restartReleased := false }
    ∧ State.reset.faults.record = none ∧ State.reset.faults.overflow = 0
    ∧ ∀ v ∈ State.reset.faults.counters.values, v = 0

/-- R164: at POWER_ON of a part without supply and at PIN_RESET every owner takes its reset value, the fault
capture included, and the reset holds the part; the EEPROM, the DRAM and the straps are as they were, until
RESET_RELEASE samples the straps. The reset cause is POWER or PIN. A POWER_ON of a part not known to be without
supply is a loss of supply and then a POWER_ON (assumption 7). The raster in flight is dropped without a frame
end (R151), after the pixels that were due by then have left; a part that runs first takes what is due (assumption 3). A
pin reset that overlaps a power-on reset makes the cause PIN (assumption 9). -/
def Obligations.PowerOnAndPinResetClearEveryOwner : Prop :=
  (∀ (t : Nat) (s b : State), b = (if s.resetPhase = .running then settle s else s) → ∀ c cause,
      (s.resetPhase = .unpowered ∧ c = Instr.powerOn t ∧ cause = ResetCause.power
        ∨ s.resetPhase ≠ .unpowered ∧ c = Instr.pinReset t ∧ cause = ResetCause.pin) →
      exec c s = .next { State.reset with
        pending := s.pending, now := max t s.now, draws := s.draws, straps := s.straps,
        eeprom := s.eeprom,
        loader := { Loader.reset cause s.straps with cycle := s.loader.cycle },
        buffers := s.buffers.map fun b => { b with state := .free, sequence := 0 },
        encoder := { Encoder.reset with closed := (advanceTo t b).encoder.closed },
        converter := (advanceTo t b).converter,
        bus := .reset (max t s.now) (seedOf s.stn),
        timer := { FrameTimer.reset with lineLow := s.timer.lineLow } })
    ∧ (∀ (t : Nat) (s : State), s.resetPhase ≠ .unpowered →
        ∃ u, exec (.powerLost t) s = .next u ∧ exec (.powerOn t) s = exec (.powerOn t) u)
    ∧ ∀ (t : Nat) (s : State), s.resetPhase = .unpowered → exec (.pinReset t) s = .next s

/-- R115, R122, R164, R165, R166, R168: when the reset ends the straps are sampled, the start record keeps them with
its SVC and STATION_0 flags, the back-off generator is seeded with the number sampled, and the load begins by
waiting for the EEPROM. (That the last start bit on the line, which R115 puts at the moment of the reset, is at the end
of it is assumption 30, DESIGN CHOICE.) -/
def Obligations.ResetReleaseSamplesStraps : Prop :=
  ∀ (t : Nat) (straps : Straps) (s : State), s.resetPhase = .held →
    exec (.resetRelease t straps) s = .next { advanceTo t s with
      resetPhase := .running, straps := straps,
      bus := .reset (max t s.now) (BitVec.ofNat 16 (straps.stn.val * 2048 + 1)),
      loader := { s.loader with
        phase := .waiting (max t s.now),
        record := { s.loader.record with
          straps := straps, svcStrap := straps.svc, stationZero := straps.stn == 0 } } }

/-- R176: POWER_LOST leaves the part without supply, and of the EEPROM it can touch only the 32 bytes of a write in
flight, where every byte has each of its bits old or new; with a transfer and an earlier write's cycle both noted, each bit
is one of what the EEPROM held, what the transfer brings and what the cycle replaces. What the part held is at its reset
value when supply returns. (Which of them a bit is, is a free value, and that the rest of the 64-byte page keeps its
contents, where R176 leaves the whole page open, is DESIGN CHOICE: assumption 7.) -/
def Obligations.PowerLossTouchesOnlyThePageInFlight : Prop :=
  ∀ (t : Nat) (s : State), s.resetPhase ≠ .unpowered → s.eeprom.wf →
    ∃ u, exec (.powerLost t) s = .next u ∧ u.resetPhase = .unpowered ∧ u.life = .reset
      ∧ u.loader.transfer = none ∧ u.loader.cycle = none ∧ u.loader.storeInFlight = false
      ∧ u.faults = .clear ∧ u.timer.number = 0
      ∧ (s.loader.transfer = none → s.loader.cycle = none → u.eeprom = s.eeprom)
      ∧ (∀ a, (∀ w, s.loader.transfer = some w ∨ s.loader.cycle = some w →
            a < w.address ∨ w.address + w.bytes.length ≤ a) → u.eeprom.read a = s.eeprom.read a)
      ∧ ∀ a j, j < 8 → (u.eeprom.read a).getLsbD j = (s.eeprom.read a).getLsbD j
          ∨ ∃ w b i, (s.loader.transfer = some w ∨ s.loader.cycle = some w) ∧ a = w.address + i
            ∧ w.bytes[i]? = some b ∧ (u.eeprom.read a).getLsbD j = b.getLsbD j

/-- R164, R166, R174, R182: RESTART_RESET takes the reset of a RESTART that has been released: every owner takes
its reset value but the straps, the frame number, the fault capture record and the counters, which are kept; the unset
flag is clear, the reset cause RESTART, and the load begins. Without such a reset nothing happens. (When the reset is due,
`restartDue`, is assumption 20, DESIGN CHOICE; that RESTART_RESET does nothing when it is not is assumption 2, DEDUCED.) -/
def Obligations.RestartResetKeepsNumberStrapsAndFaults : Prop :=
  (∀ s : State, s.resetPhase = .running → s.due = [] → s.restartDue = true →
    exec .restartReset s = .next { State.reset with
      pending := s.pending, now := s.now, draws := s.draws, straps := s.straps, eeprom := s.eeprom,
      resetPhase := .running,
      loader := { Loader.reset .restart s.straps with
        cycle := s.loader.cycle, phase := .waiting s.now,
        record := { StartRecord.fresh .restart s.straps with
          svcStrap := s.straps.svc, stationZero := s.straps.stn == 0 } },
      buffers := s.buffers.map fun b => { b with state := .free, sequence := 0 },
      encoder := { Encoder.reset with closed := s.encoder.closed },
      converter := s.converter,
      bus := .reset s.now (seedOf s.stn),
      timer := { FrameTimer.reset with
        lineLow := s.timer.lineLow, number := s.timer.number, unset := false },
      faults := s.faults })
    ∧ ∀ s : State, s.restartDue = false → exec .restartReset s = .next s

/-! ### The load -/

/-- R168: an EEPROM that acknowledges is read from its first byte: 0xFF there means a blank image, which sets
BLANK and ends the load; otherwise the header is read next, and any write cycle of the EEPROM's own is over.
After 20 ms without an acknowledgement the image is blank. -/
def Obligations.EepromAnswersOrImageIsBlank : Prop :=
  ∀ (s : State) (since : Nat), s.calm → s.loader.phase = .waiting since →
    (∀ t, exec (.eepromAcknowledge t) s = .next (refreshTx { advanceTo t s with
        loader := if s.eeprom.read 0 = 0xFF then
            { s.loader with cycle := none, phase := .ended,
                            record := { s.loader.record with blank := true } }
          else { s.loader with cycle := none, phase := .header } }))
      ∧ exec .eepromReadyTimeout s = .next (refreshTx { advanceTo (since + 20000000) s with
          loader := { s.loader with
            phase := .ended, record := { s.loader.record with blank := true } } })

/-- R169, R170: the header passes with the magic, the layout version and the header sum right; then its
clamped fields are kept and counted, and the sections follow. A failed header marks section 0 failed, sets
CHECK_FAIL, reports IMAGE_CHECK with detail 0 and ends the load. -/
def Obligations.HeaderCheckSettlesSectionZero : Prop :=
  ∀ (t : Nat) (s : State), s.calm → s.loader.phase = .header →
    (s.eeprom.word 0 = 0x6A24 ∧ s.eeprom.read 2 = 1 ∧ s.eeprom.word 62 = s.eeprom.sum 0 31 →
      exec (.headerCheck t) s = .next (refreshTx { advanceTo t s with
        loader := { s.loader with
          checks := s.loader.checks.set 0 .passed, header := some (readHeader s.eeprom),
          phase := .sections 1,
          record := { s.loader.record with
            clamped := min 255 (s.loader.record.clamped + headerClamps s.eeprom) } } }))
    ∧ (¬(s.eeprom.word 0 = 0x6A24 ∧ s.eeprom.read 2 = 1 ∧ s.eeprom.word 62 = s.eeprom.sum 0 31) →
        s.loader.record.checkFail = none →
        exec (.headerCheck t) s = .next (refreshTx { advanceTo t s with
          loader := { s.loader with
            checks := s.loader.checks.set 0 .failed, phase := .ended,
            record := { s.loader.record with checkFail := some 0 } },
          faults := s.faults.report
            { kind := .imageCheck, frame := s.timer.number, state := s.life.state, detail := 0 } }))

/-- R167, R170: which bytes of the header each field is, and its value after clamping: the stored one where that is in
range, else the nearer end. The enables and the options are single bits, the dither mode a number 0..3, the sums are as
stored. So every field lies in its range, and the clamped count rises by one for each field out of range. -/
def Obligations.HeaderFieldsLieInTheirRanges : Prop :=
  ∀ m : Memory,
    (∀ h, h = readHeader m →
      (h.cellExp = max 5 (min 7 (m.read 3).toNat) ∧ h.outW = max 64 (min 4096 (m.word 4))
        ∧ h.outH = max 64 (min 4096 (m.word 6)) ∧ h.inW = max 16 (min 2048 (m.word 8))
        ∧ h.inH = max 16 (min 2048 (m.word 10)) ∧ h.nx = max 2 (min 65 (m.read 12).toNat)
        ∧ h.ny = max 2 (min 65 (m.read 13).toNat) ∧ h.period = max 8000 (min 41667 (m.word 14))
        ∧ h.announce = max 4 (min 64 (m.read 16).toNat) ∧ h.lead = max 2 (min 64 (m.read 17).toNat)
        ∧ h.silence = max 4 (min 512 (m.word 18)) ∧ h.listenTime = max 8 (min 1024 (m.word 20))
        ∧ h.joinCode = max 0 (min 6 (m.read 22).toNat) ∧ h.leaveCode = max 0 (min 6 (m.read 23).toNat)
        ∧ h.faultCode = max 0 (min 6 (m.read 24).toNat) ∧ h.lossCode = max 0 (min 6 (m.read 25).toNat)
        ∧ h.floor = max 1 (min 4095 (m.word 26)) ∧ h.lampThreshold = max 0 (min 4031 (m.word 28))
        ∧ h.thermalLimit = max 256 (min 4094 (m.word 30)) ∧ h.holdLimit = max 0 (min 255 (m.read 32).toNat)
        ∧ h.divisor = max 0 (min 31 (m.read 35).toNat) ∧ h.lockCount = max 0 (min 64 (m.read 37).toNat))
      ∧ (h.dither = match min 3 (m.read 33).toNat with
          | 0 => .still | 1 => .alternate | 2 => .rotate | _ => .swap)
      ∧ h.enables.length = 4 ∧ (∀ k, k < 4 → h.enables.getD k false = (m.read 34).getLsbD k)
      ∧ h.startDark = (m.read 36).getLsbD 0
      ∧ h.sums = [m.word 38, m.word 40, m.word 42, m.word 44, m.word 46])
    ∧ (∀ h, h = readHeader m →
      (5 ≤ h.cellExp ∧ h.cellExp ≤ 7) ∧ (64 ≤ h.outW ∧ h.outW ≤ 4096) ∧ (64 ≤ h.outH ∧ h.outH ≤ 4096)
        ∧ (16 ≤ h.inW ∧ h.inW ≤ 2048) ∧ (16 ≤ h.inH ∧ h.inH ≤ 2048) ∧ (2 ≤ h.nx ∧ h.nx ≤ 65)
        ∧ (2 ≤ h.ny ∧ h.ny ≤ 65) ∧ (8000 ≤ h.period ∧ h.period ≤ 41667)
        ∧ (4 ≤ h.announce ∧ h.announce ≤ 64) ∧ (2 ≤ h.lead ∧ h.lead ≤ 64)
        ∧ (4 ≤ h.silence ∧ h.silence ≤ 512) ∧ (8 ≤ h.listenTime ∧ h.listenTime ≤ 1024)
        ∧ h.joinCode ≤ 6 ∧ h.leaveCode ≤ 6 ∧ h.faultCode ≤ 6 ∧ h.lossCode ≤ 6
        ∧ (1 ≤ h.floor ∧ h.floor ≤ 4095) ∧ h.lampThreshold ≤ 4031
        ∧ (256 ≤ h.thermalLimit ∧ h.thermalLimit ≤ 4094) ∧ h.holdLimit ≤ 255 ∧ h.divisor ≤ 31
        ∧ h.lockCount ≤ 64)
    ∧ (∀ f ∈ clampedFields,
        (f.raw m < f.lo → headerField m f.offset = f.lo)
          ∧ (f.hi < f.raw m → headerField m f.offset = f.hi)
          ∧ (f.lo ≤ f.raw m → f.raw m ≤ f.hi → headerField m f.offset = f.raw m))
    ∧ headerClamps m = (clampedFields.filter fun f => f.raw m < f.lo || f.hi < f.raw m).length
    ∧ clampedFields.length = 23

/-- R29, R166, R171, R173: the last byte of section k settles it: its result is kept, the clamped count rises, and the
first section to fail sets CHECK_FAIL and reports IMAGE_CHECK, later ones nothing. The sums, the mesh's
coverage and a lock count of 0, whose section 5 passes unread, decide as R171's table says. The values counted as clamped
are the zone shapes above 16 of section 1, of enabled descriptors or not, and the gains outside 128..511 of section 5. -/
def Obligations.SectionCheckKeepsEachResult : Prop :=
  (∀ (m : Memory) (h : Header),
      sectionGood m h 1 = (m.sum 0x40 32 == h.sums.getD 0 0)
        ∧ sectionGood m h 2 = (m.sum 0x80 1024 == h.sums.getD 1 0)
        ∧ sectionGood m h 3 = (m.sum 0x880 4096 == h.sums.getD 2 0)
        ∧ (sectionGood m h 4 = true ↔ m.sum 0x2880 (4 * h.nx * h.ny) = h.sums.getD 3 0
            ∧ (h.outW - 1) / 2 ^ h.cellExp + 2 ≤ h.nx ∧ (h.outH - 1) / 2 ^ h.cellExp + 2 ≤ h.ny)
        ∧ (sectionGood m h 5 = true ↔ h.lockCount = 0
            ∨ m.sum (65536 - 256 * h.lockCount) (128 * h.lockCount) = h.sums.getD 4 0)
        ∧ sectionClamps m h 1 = ((List.range 8).filter fun z => 16 < (m.read (0x42 + 8 * z)).toNat).length
        ∧ sectionClamps m h 2 = 0 ∧ sectionClamps m h 3 = 0 ∧ sectionClamps m h 4 = 0
        ∧ (h.lockCount = 0 → sectionClamps m h 5 = 0)
        ∧ ∀ lamp black : Nat, lamp = m.word (65536 - 256 * h.lockCount) →
            black = m.word (65536 - 256 * h.lockCount + 2) → h.lockCount ≠ 0 →
            sectionClamps m h 5 = (if lamp < 128 ∨ 511 < lamp then 1 else 0)
              + (if black < 128 ∨ 511 < black then 1 else 0))
    ∧ ∀ (t k : Nat) (h : Header) (s : State), s.calm → s.loader.phase = .sections k →
        s.loader.header = some h → 1 ≤ k → k ≤ 5 →
        ∃ u, exec (.sectionCheck t) s = .next u
          ∧ u.loader.checks
              = (if k = 4 ∧ h.lockCount = 0 then
                  (s.loader.checks.set 4 (if sectionGood s.eeprom h 4 then .passed else .failed)).set 5
                    .passed
                else s.loader.checks.set k (if sectionGood s.eeprom h k then .passed else .failed))
          ∧ u.loader.record = { s.loader.record with
              clamped := min 255 (s.loader.record.clamped + sectionClamps s.eeprom h k),
              checkFail := if sectionGood s.eeprom h k ∨ s.loader.record.checkFail ≠ none
                then s.loader.record.checkFail else some k }
          ∧ u.loader.phase
              = (if 5 ≤ k ∨ k = 4 ∧ h.lockCount = 0 then .ended else .sections (k + 1))
          ∧ u.faults = (if sectionGood s.eeprom h k ∨ s.loader.record.checkFail ≠ none then s.faults
              else s.faults.report
                { kind := .imageCheck, frame := s.timer.number, state := s.life.state, detail := k })
          ∧ u.loader.header = s.loader.header ∧ u.life = s.life ∧ u.eeprom = s.eeprom
          ∧ u.settings = s.settings ∧ u.timer = s.timer

/-- R29, R30, R51, R52, R53, R56, R74, R77, R98, R127, R142, R155, R157, R159, R167, R169, R171, R172, R173: the load's end hands out the configuration
and takes the station out of START: to MEASURE with a good image, a station number and no SVC strap (and through it to
LISTEN with no input enabled), else to SERVICE. An image is good that is not blank and of which the header and every
other section passed. With a header that passed the owners have its fields, the tables, the
mesh and the gains (256 without a good protected block). The zones are the descriptors' with a good image, each bad one
reported with its index, and all disabled without. The timer starts with P and no last mark, the loss timer when there
is an input raster, and a scan when an input is enabled. A measurement begins with MEASURE; the announcement schedule
starts with its count at 0 in LISTEN and SERVICE, and C_own takes the Photometer's capacity in LISTEN; STATUS-wanted is set
and the scale target is recomputed. (The items that R169 leaves unset are assumption 10; that the
reports come in ascending index and still name START is assumption 11; that a line already low is measured from here
is assumption 18.) -/
def Obligations.LoadFinishedLeavesStart : Prop :=
  (∀ l : Loader, l.checks.length = 6 → (l.imageGood = true ↔
      l.record.blank = false ∧ ∀ k, k < 6 → l.checks.getD k .notChecked = .passed)) ∧
  ∀ (t : Nat) (s : State), s.calm → s.loader.phase = .ended → s.life.state = .start →
    s.photo.inputs.length = 4 →
    ∃ u, exec (.loadFinished t) s = .next u
      ∧ u.now = max t s.now ∧ u.loader = { s.loader with phase := .idle, header := none }
      ∧ (u.life.state = if s.loader.imageGood = true ∧ s.straps.stn ≠ 0 ∧ s.straps.svc = false then
            (if u.photo.inputs.any (·.enabled) then .measure else .listen) else .service)
      ∧ (u.life.holdDark = (s.life.holdDark || s.loader.imageGood && u.settings.hdr.startDark))
      ∧ (s.loader.imageGood = true → u.settings.hdr.startDark = true → u.life.causes.hold = true)
      ∧ u.life.fade = s.life.fade ∧ u.bus.statusWanted = true
      ∧ (u.life.state = .measure →
          u.photo.measurement = some { scans := 0, blacks := [] } ∧ u.schedule = s.schedule)
      ∧ (u.life.state ≠ .measure →
          u.photo.measurement = s.photo.measurement ∧ u.schedule = { count := 0, running := true })
      ∧ u.photo.black = s.photo.black ∧ u.photo.capacity = s.photo.capacity
      ∧ u.level.capacity = (if u.life.state = .listen then s.photo.capacity else s.level.capacity)
      ∧ u.level.scaleTarget = scaleTargetOf u.level.capacity u.settings.hdr.floor s.peers
      ∧ u.timer.expiry = some (max t s.now + u.periodNs) ∧ u.timer.lastMark = none
      ∧ u.timer.number = s.timer.number ∧ u.timer.unset = s.timer.unset
      ∧ u.timer.lineState = s.timer.lineState
      ∧ u.timer.lowSince = (if s.timer.lineLow then some (max t s.now) else none)
      ∧ (∀ i, i < 4 → (u.photo.input i).enabled = u.settings.hdr.enables.getD i false)
      ∧ u.scan = (if u.photo.inputs.any (·.enabled)
          then some { began := max t s.now, round := 1, samples := [] } else none)
      ∧ (u.settings.hasInput = true → u.input.lossDeadline = some (max t s.now + 3 * u.periodNs))
      ∧ (∀ h, s.loader.header = some h →
          u.settings.hdr = { h with floor := if s.loader.imageGood then h.floor else 4095 }
            ∧ u.settings.period = some h.period ∧ u.settings.hasInput = true
            ∧ (∀ n a, n = h.lockCount → a = 65536 - 256 * n →
              (n ≠ 0 ∧ s.loader.checks.getD 5 .notChecked = .passed →
                u.settings.lampGain = max 128 (min 511 (s.eeprom.word a))
                  ∧ u.settings.blackGain = max 128 (min 511 (s.eeprom.word (a + 2))))
              ∧ (n = 0 ∨ s.loader.checks.getD 5 .notChecked ≠ .passed →
                u.settings.lampGain = 256 ∧ u.settings.blackGain = 256))
            ∧ (u.settings.decode.length = 1024
              ∧ ∀ k, k < 1024 → u.settings.decode.getD k 0 = s.eeprom.word (0x80 + 2 * k))
            ∧ (u.settings.encode.length = 4096
              ∧ ∀ k, k < 4096 → u.settings.encode.getD k 0 = s.eeprom.word (0x880 + 2 * k))
            ∧ ∀ i j k, i < h.nx → j < h.ny → k = 0x2880 + 8 * (j * h.nx + i) →
                u.settings.node i j = {
                  u := s.eeprom.word k, v := s.eeprom.word (k + 2), entryA := s.eeprom.word (k + 4),
                  entryB := s.eeprom.word (k + 6) })
      ∧ (s.loader.header = none →
          u.settings.period = some 16667 ∧ u.settings.hasInput = false ∧ u.settings.lampGain = 256
            ∧ u.settings.blackGain = 256 ∧ u.settings.hdr.outW = 1920 ∧ u.settings.hdr.outH = 1080
            ∧ u.settings.hdr.announce = 8 ∧ u.settings.hdr.silence = 24 ∧ u.settings.hdr.lead = 8
            ∧ u.settings.hdr.floor = 4095 ∧ u.settings.hdr.divisor = 15
            ∧ u.settings.hdr.lampThreshold = 400 ∧ u.settings.hdr.thermalLimit = 3200
            ∧ u.settings.hdr.lockCount = 0 ∧ u.settings.hdr.enables = [true, true, true, true])
      ∧ (s.loader.imageGood = false → u.faults = s.faults ∧ ∀ z, u.zone z = {
          enabled := false, neighbour := 0, configuredShape := 0, agreedShape := 0, shapeInUse := 0,
          mismatch := false, oneSided := false, state := .wait, ramp := none, m := 64 })
      ∧ (s.loader.imageGood = true → ∀ marked bad : Nat → Bool, ∀ neighbour shape : Nat → Nat,
          (∀ z, (marked z = true ↔ s.eeprom.read (0x40 + 8 * z) = 1)
            ∧ neighbour z = (s.eeprom.read (0x41 + 8 * z)).toNat
            ∧ shape z = min 16 (s.eeprom.read (0x42 + 8 * z)).toNat
            ∧ (bad z = true ↔ marked z = true
                ∧ (neighbour z = 0 ∨ neighbour z = s.stn ∨ 31 < neighbour z))) →
          (∀ z, z < 8 → u.zone z = {
            enabled := marked z && !bad z, neighbour := neighbour z, configuredShape := shape z,
            agreedShape := shape z, shapeInUse := shape z, mismatch := false, oneSided := false,
            state := .wait, ramp := none, m := 64 })
          ∧ u.faults = ((List.range 8).filter bad).foldl (fun f z => f.report
              { kind := .zoneConfig, frame := s.timer.number, state := .start, detail := z }) s.faults)
      ∧ u.eeprom = s.eeprom ∧ u.peers = s.peers ∧ u.buffers = s.buffers
      ∧ u.faults.counters = s.faults.counters

/-! ### The frame line -/

/-- R129, R132: a falling edge in NORMAL is a frame mark when none was taken yet or the last is at least 7/8 x P
ago; otherwise it is early and is counted. Either way the low time is measured from it. In START the edge is
not judged, and in a part without supply or held in reset it moves the line's level alone (assumption 18). -/
def Obligations.FallingEdgeIsMarkOrEarly : Prop :=
  (∀ (t : Nat) (s : State), s.resetPhase ≠ .running →
    exec (.frameLineFall t) s
      = .next { s with now := max t s.now, timer := { s.timer with lineLow := true } })
  ∧ ∀ (t : Nat) (s : State), s.calm →
    (s.life.state = .start →
      exec (.frameLineFall t) s
        = .next (refreshTx { advanceTo t s with timer := { s.timer with lineLow := true } }))
    ∧ (s.life.state ≠ .start → s.timer.lineState = .normal →
        ∀ s', s' = { advanceTo t s with timer := { s.timer with
            lineLow := true, lowSince := some (max t s.now),
            lowOwn := decide (∃ e ∈ s.timer.assertion, max t s.now < e) } } →
          ((∀ m ∈ s.timer.lastMark, 7 * s.periodNs ≤ 8 * (max t s.now - m)) →
              exec (.frameLineFall t) s = .next (refreshTx (frameMark s')))
            ∧ (¬(∀ m ∈ s.timer.lastMark, 7 * s.periodNs ≤ 8 * (max t s.now - m)) →
              exec (.frameLineFall t) s = .next (refreshTx { s' with faults := { s.faults with
                counters := { s.faults.counters with
                  early := min 65535 (s.faults.counters.early + 1) } } })))

/-- R133: in STUCK the line is neither watched for edges nor asserted: a falling edge is not a mark, not early and
not counted, an expiry makes no assertion, a second long low reports nothing, and the fault comes once, at the
entry to STUCK. An edge moves only what the recovery of R135 measures: the level and the high time. -/
def Obligations.StuckLineIsNotWatchedForEdges : Prop :=
  ∀ s : State, s.calm → s.life.state ≠ .start →
    (s.timer.lineState = .stuck →
      (∀ t, exec (.frameLineFall t) s = .next (refreshTx
          { advanceTo t s with timer := { s.timer with lineLow := true, highSince := none } }))
      ∧ (∀ t, exec (.frameLineRise t) s = .next (refreshTx
          { advanceTo t s with timer := { s.timer with
              lineLow := false, lowSince := none, highSince := some (max t s.now) } }))
      ∧ (∃ u, exec .frameTimerExpiry s = .next u ∧ u.timer.assertion = s.timer.assertion
          ∧ u.timer.lineState = .stuck)
      ∧ exec .lineStuck s = .next (refreshTx s))
    ∧ (∀ since, s.timer.lineState = .normal → s.timer.lowSince = some since →
        ∃ u, exec .lineStuck s = .next u ∧ u.timer.lineState = .stuck
          ∧ u.faults = s.faults.report
              { kind := .lineStuck, frame := s.timer.number, state := s.life.state,
                detail := if s.timer.lowOwn then 1 else 0 }
          ∧ exec .lineStuck u = .next (refreshTx u))

/-- R127, R128, R134: at the expiry the timer restarts with P; in NORMAL it asserts the line for 4 us unless the
station sleeps, and in STUCK the expiry is itself a frame mark. -/
def Obligations.TimerExpiryAssertsOrMarks : Prop :=
  ∀ (s : State) (e : Nat), s.calm → s.life.state ≠ .start → s.timer.expiry = some e →
    ∀ s', s' = { advanceTo e s with
        timer := { s.timer with expiry := some (max e s.now + s.periodNs) } } →
      (s.timer.lineState = .stuck → exec .frameTimerExpiry s = .next (refreshTx (frameMark s')))
      ∧ (s.timer.lineState = .normal → s.life.state = .sleep →
          exec .frameTimerExpiry s = .next (refreshTx s'))
      ∧ (s.timer.lineState = .normal → s.life.state ≠ .sleep →
          exec .frameTimerExpiry s = .next (refreshTx { s' with timer := { s'.timer with
            assertion := some (max e s.now + 4000) } }))

/-- R128, R132, R135, R140: a rising edge in NORMAL ends the low time; a low of more than 100 us makes the line
STUCK and reports LINE_STUCK, with detail 1 for a low that the own assertion began; a high of one P in STUCK
brings NORMAL back, with the timer and the last mark as they are; the assertion and the pace pulse end at
their times. In START a rising edge moves the line's level alone, as it does in a part without supply or held in reset
(assumption 18). (That the first moment past 100 us counts is assumption 19.) -/
def Obligations.LineTimesRunToTheirEnds : Prop :=
  (∀ (t : Nat) (s : State), s.resetPhase ≠ .running →
    exec (.frameLineRise t) s
      = .next { s with now := max t s.now, timer := { s.timer with lineLow := false } })
  ∧ (∀ (t : Nat) (s : State), s.calm → s.life.state = .start →
    exec (.frameLineRise t) s
      = .next (refreshTx { advanceTo t s with timer := { s.timer with lineLow := false } }))
  ∧ ∀ s : State, s.calm → s.life.state ≠ .start →
    (s.timer.lineState = .normal → ∀ t, exec (.frameLineRise t) s = .next (refreshTx
        { advanceTo t s with timer := { s.timer with lineLow := false, lowSince := none } }))
    ∧ (∀ since, s.timer.lineState = .normal → s.timer.lowSince = some since →
        exec .lineStuck s = .next (refreshTx { advanceTo (since + 100001) s with
          timer := { s.timer with lineState := .stuck, lowSince := none, highSince := none },
          faults := s.faults.report
            { kind := .lineStuck, frame := s.timer.number, state := s.life.state,
              detail := if s.timer.lowOwn then 1 else 0 } }))
    ∧ (∀ since, s.timer.lineState = .stuck → s.timer.highSince = some since →
        exec .lineRecovery s = .next (refreshTx { advanceTo (since + s.periodNs) s with
          timer := { s.timer with lineState := .normal, highSince := none } }))
    ∧ (∀ e, s.timer.assertion = some e → exec .assertionEnd s = .next (refreshTx
        { advanceTo e s with timer := { s.timer with assertion := none } }))
    ∧ (∀ e, s.timer.pace = some e → exec .pacePulseEnd s = .next (refreshTx
        { advanceTo e s with timer := { s.timer with pace := none } }))

/-! ### The frame mark -/

/-- R31, R33, R36, R47, R78, R80, R81, R93, R98, R113, R130, R140, R149: what the owners of the timer, the zones, the level,
the peer table, the receive assembler and the input link do at a mark, at the number after the increment. The zones and
the schedule run on through LEAVING; at the mark at which F reaches 0 the enabled zones are put in WAIT (the schedule
of a station that goes to SLEEP at it is stated by `MarkEvaluatesFadeAndEnds`). -/
def Obligations.MarkStepsEveryOwner : Prop :=
  ∀ s u : State, u = frameMark s → ∀ ends : Prop,
    (ends ↔ s.life.state = .leaving
      ∧ ∃ r, s.life.fadeRamp = some r ∧ r.value (s.timer.number + 1) = 0) →
    (u.timer.number = s.timer.number + 1 ∧ u.timer.lastMark = some s.now
      ∧ u.timer.expiry = some (s.now + s.periodNs) ∧ u.timer.pace = some (s.now + 8000)
      ∧ u.timer.unset = s.timer.unset ∧ u.timer.lineState = s.timer.lineState
      ∧ u.timer.assertion = s.timer.assertion)
    ∧ (ends → ∀ z, (s.zone z).enabled = true → u.zone z = { s.zone z with
        state := .wait, ramp := none, m := 64, shapeInUse := (s.zone z).agreedShape })
    ∧ (¬ends → ∀ z, u.zone z =
        match (s.zone z).ramp, (s.zone z).state with
        | none, _ => { s.zone z with shapeInUse := (s.zone z).agreedShape }
        | some r, .filling =>
          if r.value u.timer.number = 64 then
            { s.zone z with
              state := .solo, ramp := none, m := 64, shapeInUse := (s.zone z).agreedShape }
          else { s.zone z with
            m := r.value u.timer.number, shapeInUse := (s.zone z).agreedShape }
        | some r, .yielding =>
          if r.value u.timer.number = 0 then
            { s.zone z with
              state := .shared, ramp := none, m := 0, shapeInUse := (s.zone z).agreedShape }
          else { s.zone z with
            m := r.value u.timer.number, shapeInUse := (s.zone z).agreedShape }
        | some r, _ => { s.zone z with
            m := r.value u.timer.number, shapeInUse := (s.zone z).agreedShape })
    ∧ (u.level.sapp = (if s.level.sapp ≤ u.level.scaleTarget
          then min u.level.scaleTarget (s.level.sapp + 64)
          else max u.level.scaleTarget (s.level.sapp - 64))
        ∧ u.level.dapp = s.level.record.value u.timer.number
        ∧ u.level.record = (if reached u.timer.number s.level.record.start = true
              ∧ s.level.record.ramp ≤ (u.timer.number - s.level.record.start).toNat + 1
            then { s.level.record with startLevel := s.level.record.target, ramp := 0 }
            else s.level.record)
        ∧ u.level.capacity = s.level.capacity ∧ u.level.unset = s.level.unset)
    ∧ u.peers = s.peers.map (fun e => match e.state with
        | .absent => e
        | .live | .lost => { e with age := min 65535 (e.age + 1) })
    ∧ (¬(ends ∧ s.life.sleepPending = true) →
        u.schedule = { s.schedule with
          count := if s.schedule.running then s.schedule.count + 1 else s.schedule.count })
    ∧ u.bus.assembly = s.bus.assembly.map (fun a => { a with straddle := true }) ∧ u.bus.markSince = true
    ∧ u.bus.rxQueue = s.bus.rxQueue ∧ u.bus.answers = s.bus.answers
    ∧ u.input = { s.input with
        hold := if s.input.link = .lost then min 256 (s.input.hold + 1) else s.input.hold }

/-- R54, R59, R61, R66, R67: the Lifecycle Controller's work at a mark. F follows the fade ramp record in JOINING and
LEAVING; at 64 the station is LIT, at 0 it is DARK, or SLEEP with sleep-pending set, and the records and
handover-wanted go; the listen and dark counts rise in LISTEN and DARK. -/
def Obligations.MarkEvaluatesFadeAndEnds : Prop :=
  ∀ s u : State, u = frameMark s →
    (∀ r, s.life.state = .joining → s.life.fadeRamp = some r →
      (r.value (s.timer.number + 1) ≠ 64 →
        u.life = { s.life with fade := r.value (s.timer.number + 1) })
      ∧ (r.value (s.timer.number + 1) = 64 →
        u.life = { s.life with state := .lit, fade := 64, fadeRamp := none, handover := none }
          ∧ u.bus.handoverWanted = false ∧ u.bus.statusWanted = true))
    ∧ (∀ r, s.life.state = .leaving → s.life.fadeRamp = some r →
      (r.value (s.timer.number + 1) ≠ 0 →
        u.life = { s.life with fade := r.value (s.timer.number + 1) })
      ∧ (r.value (s.timer.number + 1) = 0 →
        u.life = (if s.life.sleepPending then
            { s.life with state := .sleep, fade := 0, fadeRamp := none, handover := none,
                          sleepPending := false }
          else { s.life with state := .dark, fade := 0, fadeRamp := none, handover := none,
                             darkCount := 0 })
          ∧ u.bus.handoverWanted = false ∧ u.bus.statusWanted = true
          ∧ (s.life.sleepPending = true → u.schedule.running = false ∧ u.scan = none)
          ∧ ∀ z, (s.zone z).enabled = true →
              (u.zone z).state = .wait ∧ (u.zone z).ramp = none ∧ (u.zone z).m = 64))
    ∧ (s.life.state = .listen →
        u.life = { s.life with listenCount := min 65535 (s.life.listenCount + 1) })
    ∧ (s.life.state = .dark →
        u.life = { s.life with darkCount := min 65535 (s.life.darkCount + 1) })
    ∧ (s.life.state = .start ∨ s.life.state = .measure ∨ s.life.state = .lit
        ∨ s.life.state = .service ∨ s.life.state = .sleep → u.life = s.life)

/-- R25, R147, R151, R153: at a mark the newest READY buffer is shown and the others READY or SHOWN are freed, with DROP
for a second READY one; with none READY the SHOWN one stays and REPEAT is counted. A raster in flight is cut,
its rest sent as code 0 and CUT counted, and a new raster begins with the phase of R25. -/
def Obligations.MarkChoosesBufferAndBeginsRaster : Prop :=
  ∀ s u : State, u = frameMark s → BuffersAgree s →
    (∀ i, i < 3 → (s.buffer i).state = .ready →
      (∀ j, j < 3 → (s.buffer j).state = .ready → j ≠ i →
        ahead (s.buffer i).sequence (s.buffer j).sequence = true) →
      u.buffer i = { s.buffer i with state := .shown }
        ∧ ∀ j, j < 3 → j ≠ i → u.buffer j = { s.buffer j with
            state := if (s.buffer j).state = .filling then .filling else .free })
    ∧ (buffersIn .ready s.buffers = 0 → u.buffers = s.buffers)
    ∧ u.faults = { s.faults with counters := { s.faults.counters with
        drop := if buffersIn .ready s.buffers = 2 then min 65535 (s.faults.counters.drop + 1)
          else s.faults.counters.drop,
        repeated := if buffersIn .ready s.buffers = 0 ∧ buffersIn .shown s.buffers = 1
          then min 65535 (s.faults.counters.repeated + 1) else s.faults.counters.repeated,
        cut := if s.encoder.raster.isSome then min 65535 (s.faults.counters.cut + 1)
          else s.faults.counters.cut } }
    ∧ u.encoder.raster = some { began := s.now, next := 0 } ∧ u.encoder.sent = []
    ∧ (∀ f, f = (s.timer.number + 1).toNat % 4 → (u.encoder.phaseX, u.encoder.phaseY)
        = match s.settings.hdr.dither with
          | .still => (0, 0)
          | .alternate => if f = 1 ∨ f = 3 then (1, 1) else (0, 0)
          | .rotate => if f = 1 then (1, 0) else if f = 2 then (1, 1) else if f = 3 then (0, 1) else (0, 0)
          | .swap => if f = 1 ∨ f = 3 then (0, 1) else (0, 0))
    ∧ (s.encoder.raster = none → u.encoder.closed = s.encoder.closed)
    ∧ ∀ r, s.encoder.raster = some r → u.encoder.closed
        = s.encoder.sent ++ List.replicate (rasterSize s - r.next) { red := 0, green := 0, blue := 0 }

/-- R54, R67, R93, R98, R149: which steps a mark makes due: an entry whose age passed its limit, the announcement, the
hold limit, the end of the listen period, the rejoin test. (That they are commands of their own, taken after
the mark, is assumption 3.) -/
def Obligations.MarkMakesStepsDue : Prop :=
  ∀ s u : State, u = frameMark s →
    (∀ n, DueStep.peerLost n ∈ u.due ↔ 1 ≤ n ∧ n ≤ 31 ∧ (u.peer n).state = .live
        ∧ s.settings.hdr.silence < (u.peer n).age)
    ∧ (∀ n, DueStep.peerPurge n ∈ u.due ↔ 1 ≤ n ∧ n ≤ 31 ∧ (u.peer n).state = .lost
        ∧ 600 < (u.peer n).age)
    ∧ (DueStep.announcement ∈ u.due ↔
        u.schedule.running = true ∧ u.schedule.count = s.settings.hdr.announce)
    ∧ (DueStep.holdLimit ∈ u.due ↔ u.input.link = .lost ∧ s.settings.hdr.holdLimit < u.input.hold
        ∧ u.patternSource = .input ∧ u.life.causes.input = false)
    ∧ (DueStep.listenPeriodEnd ∈ u.due ↔
        s.life.state = .listen ∧ u.life.listenCount = s.settings.hdr.listenTime)
    ∧ (DueStep.rejoin ∈ u.due ↔
        s.life.state = .dark ∧ s.settings.hdr.announce ≤ u.life.darkCount)

/-! ### Steps due at a mark -/

/-- R31, R32, R54, R57, R58, R60, R67, R137: at the end of the listen period the unset flag is cleared, and the lighting
condition decides between JOINING, reason START, and DARK; a station in DARK that may light rejoins, reason
REJOIN, and otherwise stays. JOINING has a JOIN record that starts L marks on and a fade ramp from 0, and sets each
enabled zone once from its neighbour's target (`targetOf`, stated by `ZoneTakesTargetAndShape`): SHARED; a yielding ramp
from base 64, evaluated at once; SOLO for a filling ramp, a loss and no target. In DARK the enabled zones are in WAIT.
(That a pattern other than INPUT lights a station that no frame has reached, where R148 says that LISTEN does not allow
it in any case, is assumption 36, DESIGN CHOICE.) -/
def Obligations.LightingDecidesListenEndAndRejoin : Prop :=
  ∀ (s : State) (joined : Zone → Zone), s.resetPhase = .running →
    (∀ z, joined z = if z.enabled = false then z else
      match targetOf (s.peer z.neighbour) with
      | .shared => { z with state := .shared, ramp := none, m := 0 }
      | .ramp false start step =>
        if (RampRecord.mk 64 start step false).value s.timer.number = 0 then
          { z with state := .shared, ramp := none, m := 0 }
        else { z with
          state := .yielding, ramp := some (RampRecord.mk 64 start step false),
          m := (RampRecord.mk 64 start step false).value s.timer.number }
      | .ramp true _ _ | .loss | .unchanged => { z with state := .solo, ramp := none, m := 64 }) →
    (DueStep.listenPeriodEnd ∈ s.due → s.life.state = .listen →
      ∃ u, exec .listenPeriodEnd s = .next u ∧ u.due = s.due.erase .listenPeriodEnd
        ∧ u.timer = { s.timer with unset := false } ∧ u.bus.statusWanted = true
        ∧ (lightingAllowed s = true → u.life = { s.life with
            state := .joining, fade := 0,
            fadeRamp := some { base := 0, start := s.timer.number + BitVec.ofNat 16 s.settings.hdr.lead,
                               step := 64 / 2 ^ min s.settings.hdr.joinCode 6, up := true },
            handover := some { kind := .join,
                               start := s.timer.number + BitVec.ofNat 16 s.settings.hdr.lead,
                               code := s.settings.hdr.joinCode, reason := .start } }
            ∧ u.bus.handoverWanted = true
            ∧ u.zones = s.zones.map joined)
        ∧ (lightingAllowed s = false → u.life = { s.life with
            state := .dark, fade := 0, fadeRamp := none, handover := none, darkCount := 0 }
            ∧ u.zones = s.zones.map fun z =>
                if z.enabled then { z with state := .wait, ramp := none, m := 64 } else z))
    ∧ (DueStep.rejoin ∈ s.due → s.life.state = .dark →
      ∃ u, exec .rejoin s = .next u ∧ u.due = s.due.erase .rejoin ∧ u.timer = s.timer
        ∧ (lightingAllowed s = true → u.life = { s.life with
            state := .joining, fade := 0,
            fadeRamp := some { base := 0, start := s.timer.number + BitVec.ofNat 16 s.settings.hdr.lead,
                               step := 64 / 2 ^ min s.settings.hdr.joinCode 6, up := true },
            handover := some { kind := .join,
                               start := s.timer.number + BitVec.ofNat 16 s.settings.hdr.lead,
                               code := s.settings.hdr.joinCode, reason := .rejoin } }
            ∧ u.bus.handoverWanted = true ∧ u.bus.statusWanted = true
            ∧ u.zones = s.zones.map joined)
        ∧ (lightingAllowed s = false → u.life = s.life ∧ u.zones = s.zones))
    ∧ (lightingAllowed s = true ↔ s.life.causes = .empty
        ∧ ((∃ b ∈ s.buffers, b.state = .ready ∨ b.state = .shown) ∨ s.patternSource ≠ .input))

/-- R33, R34, R37, R41, R75, R76, R93: an entry due to be lost becomes LOST and one due to be purged ABSENT with its fields cleared; the
Zone and Level Controllers are told: in the sky each enabled zone toward that station takes the target of loss, so a SHARED
one starts its loss ramp from 0 at the next frame, a YIELDING one from the value its ramp has (SOLO at once where that is still
64), and FILLING and SOLO ones go on; every other zone stays, and out of the sky all do. The scale target is recomputed. No other entry changes.
The scale target is 32768 with the own capacity below the floor, and else floor(32768 x C_dome / C_own), C_dome the least of
the own capacity and those of the ceiling set: the LIVE peers that report JOINING, LIT or LEAVING with a capacity at or
above the floor. -/
def Obligations.AgedEntriesAreLostAndPurged : Prop :=
  (∀ (own floor dome : Nat) (peers : List PeerEntry) (inSet : PeerEntry → Prop),
      (∀ e, inSet e ↔ e.state = .live ∧ floor ≤ e.capacity
        ∧ (e.reported = some .joining ∨ e.reported = some .lit ∨ e.reported = some .leaving)) →
      (own < floor ∨ own = 0 → scaleTargetOf own floor peers = 32768)
      ∧ (floor ≤ own → own ≠ 0 → dome ≤ own → (∀ e ∈ peers, inSet e → dome ≤ e.capacity) →
          (dome = own ∨ ∃ e ∈ peers, inSet e ∧ e.capacity = dome) →
          scaleTargetOf own floor peers = 32768 * dome / own))
    ∧ ∀ (n step : Nat) (s : State) (d : DueStep) (e : PeerEntry), s.resetPhase = .running → 1 ≤ n → n ≤ 31 →
      s.peers.length = 31 → d ∈ s.due → step = 64 / 2 ^ min s.settings.hdr.lossCode 6 →
      (d = .peerLost n ∧ (s.peer n).state = .live ∧ s.settings.hdr.silence < (s.peer n).age
          ∧ e = { s.peer n with state := .lost }
        ∨ d = .peerPurge n ∧ (s.peer n).state = .lost ∧ 600 < (s.peer n).age ∧ e = .cleared) →
      ∃ u, exec d.command s = .next u ∧ u.due = s.due.erase d ∧ u.peers = s.peers.set (n - 1) e
        ∧ u.level = { s.level with
            scaleTarget := scaleTargetOf s.level.capacity s.settings.hdr.floor u.peers }
        ∧ u.timer = s.timer ∧ u.life = s.life
        ∧ (∀ z, (s.zone z).neighbour ≠ n ∨ (s.zone z).enabled = false ∨ s.life.state.inSky = false →
            u.zone z = s.zone z)
        ∧ (s.life.state.inSky = true → ∀ z, (s.zone z).neighbour = n → (s.zone z).enabled = true →
            u.zone z = (s.zone z).apply s.timer.number step .loss
            ∧ ((s.zone z).state = .shared → u.zone z = { s.zone z with
                state := .filling, m := 0,
                ramp := some { base := 0, start := s.timer.number + 1, step := step, up := true } })
            ∧ (∀ r, (s.zone z).state = .yielding → (s.zone z).ramp = some r →
                r.value s.timer.number < 64 → u.zone z = { s.zone z with
                  state := .filling, m := r.value s.timer.number,
                  ramp := some { base := r.value s.timer.number, start := s.timer.number + 1,
                                 step := step, up := true } })
            ∧ (∀ r, (s.zone z).state = .yielding → (s.zone z).ramp = some r →
                r.value s.timer.number = 64 →
                u.zone z = { s.zone z with state := .solo, ramp := none, m := 64 })
            ∧ ((s.zone z).state = .filling ∨ (s.zone z).state = .solo → u.zone z = s.zone z))

/-- R58, R62, R65, R98, R149: the announcement sets STATUS-wanted and returns the count to 0; a hold limit passed raises
INPUT and reports INPUT_LOST with the limit as detail. A LIT station leaves the sky for it, on a ramp from 64 with the
leave code, and a JOINING one by reversal, on a ramp from what its own would have reached at N' - 1; outside JOINING and
LIT the cause is only recorded. (The report comes before the cause appears, so it holds the state before the leave: this
order inside one event is assumption 11, DESIGN CHOICE.) -/
def Obligations.AnnouncementAndHoldLimitAct : Prop :=
  ∀ s : State, s.resetPhase = .running →
    (DueStep.announcement ∈ s.due →
      exec .announcementDue s = .next (refreshTx { s with
        due := s.due.erase .announcement, schedule := { s.schedule with count := 0 },
        bus := { s.bus with statusWanted := true } }))
    ∧ (DueStep.holdLimit ∈ s.due → s.input.link = .lost → s.settings.hdr.holdLimit < s.input.hold →
        s.patternSource = .input → s.life.causes.input = false →
        ∃ u, exec .holdLimitPassed s = .next u ∧ u.due = s.due.erase .holdLimit
          ∧ u.faults = s.faults.report {
              kind := .inputLost, frame := s.timer.number, state := s.life.state, detail := s.settings.hdr.holdLimit }
          ∧ u.life.causes = { s.life.causes with input := true }
          ∧ (s.life.state ≠ .joining → s.life.state ≠ .lit →
              u.life = { s.life with causes := { s.life.causes with input := true } })
          ∧ (∀ ramp : RampRecord, (s.life.state = .lit ∧ ramp.base = 64
                ∨ s.life.state = .joining ∧ ∃ old, s.life.fadeRamp = some old
                    ∧ ramp.base = old.value (s.timer.number + BitVec.ofNat 16 s.settings.hdr.lead - 1)) →
              ramp.start = s.timer.number + BitVec.ofNat 16 s.settings.hdr.lead →
              ramp.step = 64 / 2 ^ min s.settings.hdr.leaveCode 6 → ramp.up = false →
              u.life = { s.life with
                  state := .leaving, causes := { s.life.causes with input := true },
                  fade := ramp.value s.timer.number, fadeRamp := some ramp,
                  handover := some {
                    kind := .leave, start := ramp.start, code := s.settings.hdr.leaveCode,
                    reason := .input } }
                ∧ u.bus.handoverWanted = true ∧ u.bus.statusWanted = true))

/-! ### The input link -/

/-- R148: three periods without a frame start make the input LOST, with the hold counter at 0 when it was not
LOST before; a frame in progress is truncated: its buffer is FREE and TRUNC counted. The timer does not
restart. -/
def Obligations.InputIsLostAfterLossTime : Prop :=
  ∀ (s : State) (d : Nat), s.calm → s.input.lossDeadline = some d → BuffersAgree s →
    ∃ u, exec .inputLossTimeout s = .next u ∧ u.now = max d s.now
      ∧ u.input = { s.input with
          lossDeadline := none, link := .lost, frame := none,
          hold := if s.input.link = .lost then s.input.hold else 0 }
      ∧ (s.input.frame = none → u.buffers = s.buffers ∧ u.faults = s.faults)
      ∧ (∀ f, s.input.frame = some f →
          (∀ j, j < 3 → u.buffer j
              = if j = f.buffer then { s.buffer j with state := .free } else s.buffer j)
            ∧ u.faults = { s.faults with counters := { s.faults.counters with
                trunc := min 65535 (s.faults.counters.trunc + 1) } })
      ∧ u.life = s.life ∧ u.timer = s.timer ∧ u.zones = s.zones ∧ u.peers = s.peers

/-- R141, R143: a frame start raises the started-frame count, which is the frame's sequence, restarts the loss
timer and gives the frame a buffer: that of a frame in progress, counting TRUNC; else the FREE one of
lowest index; else the older of two READY ones, counting DROP. The link state stays. -/
def Obligations.FrameStartTakesBuffer : Prop :=
  ∀ (t : Nat) (s : State), s.calm → BuffersAgree s →
    (s.life.state = .start ∨ s.settings.hasInput = false →
      exec (.frameStart t) s = .next (refreshTx (advanceTo t s)))
    ∧ (s.life.state ≠ .start → s.settings.hasInput = true → ∀ i, i < 3 →
        ((∃ f, s.input.frame = some f ∧ f.buffer = i)
          ∨ s.input.frame = none ∧ (s.buffer i).state = .free
              ∧ (∀ j, j < i → (s.buffer j).state ≠ .free)
          ∨ s.input.frame = none ∧ (∀ j, j < 3 → (s.buffer j).state ≠ .free)
              ∧ (s.buffer i).state = .ready
              ∧ ∃ j, j < 3 ∧ (s.buffer j).state = .ready
                ∧ ahead (s.buffer j).sequence (s.buffer i).sequence = true) →
        ∃ u, exec (.frameStart t) s = .next u
          ∧ u.input = { s.input with
              startedFrames := s.input.startedFrames + 1,
              lossDeadline := some (max t s.now + 3 * s.periodNs),
              frame := some { buffer := i, sequence := s.input.startedFrames + 1, lines := 0,
                              short := false } }
          ∧ (∀ j, j < 3 → u.buffer j = if j = i
              then { s.buffer j with state := .filling, sequence := s.input.startedFrames + 1 }
              else s.buffer j)
          ∧ u.faults = { s.faults with counters := { s.faults.counters with
              trunc := if s.input.frame ≠ none then min 65535 (s.faults.counters.trunc + 1)
                else s.faults.counters.trunc,
              drop := if s.input.frame = none ∧ (s.buffer i).state = .ready
                then min 65535 (s.faults.counters.drop + 1) else s.faults.counters.drop } }
          ∧ u.life = s.life ∧ u.timer = s.timer)

/-- R141, R144: a line goes to row "lines received" of the frame's buffer: its first Win pixels to the columns from 0,
the rest ignored; it is counted, and one shorter than Win sets the short mark. No other row and no other
column changes. A line past Hin, with no frame in progress, in START or without an input raster is ignored. -/
def Obligations.LineGoesToItsRow : Prop :=
  ∀ (t : Nat) (pixels : List Pixel) (s : State), s.calm → BuffersAgree s →
    (s.life.state = .start ∨ s.settings.hasInput = false →
      exec (.line t pixels) s = .next (refreshTx (advanceTo t s)))
    ∧ (s.life.state ≠ .start → s.settings.hasInput = true → ∀ f, s.input.frame = some f → f.lines < s.settings.hdr.inH →
      ∃ u, exec (.line t pixels) s = .next u
        ∧ u.input = { s.input with frame := some { f with
            lines := f.lines + 1,
            short := f.short || decide (pixels.length < s.settings.hdr.inW) } }
        ∧ (∀ j, j < 3 → j ≠ f.buffer → u.buffer j = s.buffer j)
        ∧ (u.buffer f.buffer).state = .filling
        ∧ (u.buffer f.buffer).sequence = (s.buffer f.buffer).sequence
        ∧ (∀ col, col < s.settings.hdr.inW → col < pixels.length →
            (rowOf (u.buffer f.buffer).rows f.lines)[col]? = pixels[col]?)
        ∧ (∀ col, s.settings.hdr.inW ≤ col ∨ pixels.length ≤ col →
            (rowOf (u.buffer f.buffer).rows f.lines)[col]?
              = (rowOf (s.buffer f.buffer).rows f.lines)[col]?)
        ∧ (∀ row, row ≠ f.lines →
            rowOf (u.buffer f.buffer).rows row = rowOf (s.buffer f.buffer).rows row)
        ∧ u.faults = s.faults ∧ u.life = s.life ∧ u.timer = s.timer)
    ∧ ((∀ f ∈ s.input.frame, s.settings.hdr.inH ≤ f.lines) →
        exec (.line t pixels) s = .next (refreshTx (advanceTo t s)))

/-- R55, R141, R145: a frame end with every line received in full makes the buffer READY, gives up the older of two
others, makes the input RECEIVING with the hold counter at 0 and clears INPUT; otherwise the frame is
truncated: its buffer is FREE, TRUNC is counted and link state and hold counter stay. With no frame in
progress, in START or without an input raster it is ignored. -/
def Obligations.FrameEndCompletesOrTruncates : Prop :=
  ∀ (t : Nat) (s : State), s.calm → BuffersAgree s →
    (s.life.state = .start ∨ s.settings.hasInput = false ∨ s.input.frame = none →
      exec (.frameEnd t) s = .next (refreshTx (advanceTo t s)))
    ∧ (s.life.state ≠ .start → s.settings.hasInput = true → ∀ f, s.input.frame = some f →
      (f.lines = s.settings.hdr.inH → f.short = false →
        ∃ u, exec (.frameEnd t) s = .next u
          ∧ u.input = { s.input with link := .receiving, frame := none, hold := 0 }
          ∧ u.life = { s.life with causes := { s.life.causes with input := false } }
          ∧ u.buffer f.buffer = { s.buffer f.buffer with state := .ready, sequence := f.sequence }
          ∧ (buffersIn .ready s.buffers < 2 →
              (∀ j, j < 3 → j ≠ f.buffer → u.buffer j = s.buffer j) ∧ u.faults = s.faults)
          ∧ (∀ i j, i < 3 → j < 3 → (s.buffer i).state = .ready → (s.buffer j).state = .ready →
              ahead (s.buffer j).sequence (s.buffer i).sequence = true →
              u.buffer i = { s.buffer i with state := .free } ∧ u.buffer j = s.buffer j
                ∧ u.faults = { s.faults with counters := { s.faults.counters with
                    drop := min 65535 (s.faults.counters.drop + 1) } }))
      ∧ (f.lines ≠ s.settings.hdr.inH ∨ f.short = true →
        ∃ u, exec (.frameEnd t) s = .next u
          ∧ u.input = { s.input with frame := none } ∧ u.life = s.life
          ∧ (∀ j, j < 3 → u.buffer j
              = if j = f.buffer then { s.buffer j with state := .free } else s.buffer j)
          ∧ u.faults = { s.faults with counters := { s.faults.counters with
              trunc := min 65535 (s.faults.counters.trunc + 1) } }))

/-! ### The Photometer -/

/-- R53, R74, R77, R154, R156, R157, R158, R159: a scan in progress takes a sample of each enabled input in each round, in
ascending index, one sample time of 2 us x (divisor + 1) after the other, and stands in the round that follows. Its
completion comes after sixteen rounds; it sets the enabled inputs' averages and the capacity, and the next scan begins.
Outside MEASURE C_own follows a difference of 16 or more; when it changes STATUS-wanted is set and the scale target is
recomputed. In MEASURE the fourth scan sets the black code from the four
BLACK averages and the station enters LISTEN, where C_own takes the capacity. With no scan in progress SCAN_COMPLETE does
nothing (assumption 2). (The codes come from `converter`, to which the command adds, and past its end they are free; a sample is taken at
the end of its time: assumption 13.) -/
def Obligations.ScanSetsAveragesCapacityAndBlack : Prop :=
  (∀ (t e n : Nat) (s : State) (c : Scan), s.scan = some c →
      e = (s.photo.inputs.filter (·.enabled)).length →
      n = min (16 * e) ((t - c.began) / (2000 * (s.settings.hdr.divisor + 1))) → c.samples.length ≤ n →
      ∃ new : List (BitVec 12), new.length = n - c.samples.length
        ∧ (∀ i, i < new.length → i < s.converter.length → new[i]? = s.converter[i]?)
        ∧ scanUntil s t = { s with
            scan := some { began := c.began, round := min 16 (n / e + 1), samples := c.samples ++ new },
            converter := s.converter.drop (n - c.samples.length) })
    ∧ (∀ (codes : List (BitVec 12)) (s : State), s.calm → s.scan = none →
        exec (.scanComplete codes) s = .next (refreshTx s))
    ∧ ∀ (codes : List (BitVec 12)) (s : State) (c full : Scan) (e done : Nat), s.calm → s.scan = some c →
    e = (s.photo.inputs.filter (·.enabled)).length →
    done = c.began + 16 * e * (2000 * (s.settings.hdr.divisor + 1)) →
    (advanceTo done { s with converter := s.converter ++ codes }).scan = some full →
    s.photo.inputs.length = 4 → (s.photo.measurement ≠ none ↔ s.life.state = .measure) →
    ∃ u, exec (.scanComplete codes) s = .next u ∧ u.now = max done s.now
      ∧ u.converter = (advanceTo done { s with converter := s.converter ++ codes }).converter
      ∧ u.scan = some { began := u.now, round := 1, samples := [] }
      ∧ (∀ i place, i < 4 → place = ((s.photo.inputs.take i).filter (·.enabled)).length →
          (u.photo.input i).enabled = (s.photo.input i).enabled
            ∧ (u.photo.input i).average = if (s.photo.input i).enabled
              then ((List.range 16).map fun k => (full.samples.getD (k * e + place) 0).toNat).sum / 16
              else (s.photo.input i).average)
      ∧ u.photo.capacity = min 4095 (((if (u.photo.input 0).enabled then (u.photo.input 0).average else 0)
            + (if (u.photo.input 1).enabled then (u.photo.input 1).average else 0))
          * s.settings.lampGain / 256)
      ∧ (u.level.capacity ≠ s.level.capacity → u.bus.statusWanted = true
          ∧ u.level.scaleTarget = scaleTargetOf u.level.capacity s.settings.hdr.floor s.peers)
      ∧ (u.level.capacity = s.level.capacity → u.life.state = s.life.state →
          u.level.scaleTarget = s.level.scaleTarget)
      ∧ (s.life.state ≠ .measure →
          (u.level.capacity = if 16 ≤ (s.level.capacity - u.photo.capacity)
              + (u.photo.capacity - s.level.capacity) then u.photo.capacity else s.level.capacity)
          ∧ u.photo.black = s.photo.black ∧ u.photo.measurement = none)
      ∧ (∀ m, s.photo.measurement = some m →
          (m.scans < 3 → u.life.state = .measure ∧ u.level.capacity = s.level.capacity
            ∧ u.photo.black = s.photo.black
            ∧ u.photo.measurement = some { scans := m.scans + 1, blacks := m.blacks ++
                [if (u.photo.input 2).enabled then (u.photo.input 2).average else 0] })
          ∧ (3 ≤ m.scans → u.life.state = .listen ∧ u.life.listenCount = 0
            ∧ u.level.capacity = u.photo.capacity ∧ u.photo.measurement = none
            ∧ u.schedule = { count := 0, running := true } ∧ u.bus.statusWanted = true
            ∧ u.photo.black = min 4095 ((m.blacks.sum +
                (if (u.photo.input 2).enabled then (u.photo.input 2).average else 0)) / 4
              * s.settings.blackGain / 256)))

/-- R55, R58, R60, R62, R160, R161, R162: the two streaks at a scan's completion, in MEASURE as in every other scanning state, and what
raising and clearing LAMP_LOW and THERMAL does: the cause joins or leaves the set, raising reports one fault, LAMP_LOW
before THERMAL, and a station in JOINING or LIT leaves with the first as reason, on its fault ramp: from 64 in LIT, and in
JOINING from what its own would have reached at N' - 1. (The station state that
a record holds is the one before its own cause appears, and after the fourth scan of MEASURE it is LISTEN: this order
inside one event is assumption 11, DESIGN CHOICE.) -/
def Obligations.StreaksRaiseAndClearCauses : Prop :=
  ∀ (codes : List (BitVec 12)) (s : State) (c : Scan) (st : StationState), s.calm → s.scan = some c →
    s.photo.inputs.length = 4 → (s.photo.measurement ≠ none ↔ s.life.state = .measure) →
    st = (if ∃ m ∈ s.photo.measurement, 3 ≤ m.scans then .listen else s.life.state) →
    s.life.causes.lampLow = s.photo.lampLow → s.life.causes.thermal = s.photo.thermal →
    ∃ u, exec (.scanComplete codes) s = .next u
      ∧ ((u.photo.lampLow, (u.photo.input 0).streak) =
          let k := (s.photo.input 0).streak
          if ¬((s.photo.input 0).enabled = true ∨ (s.photo.input 1).enabled = true) then
            (s.photo.lampLow, k)
          else if s.photo.lampLow = false then
            (if s.settings.hdr.lampThreshold ≤ u.photo.capacity then (false, 0)
              else if k < 7 then (false, k + 1) else (true, 0))
          else if u.photo.capacity < s.settings.hdr.lampThreshold + 64 then (true, 0)
          else if k < 63 then (true, k + 1) else (false, 0))
      ∧ ((u.photo.thermal, (u.photo.input 3).streak) =
          let k := (s.photo.input 3).streak
          if (s.photo.input 3).enabled = false then (s.photo.thermal, k)
          else if s.photo.thermal = false then
            (if (u.photo.input 3).average ≤ s.settings.hdr.thermalLimit then (false, 0)
              else if k < 3 then (false, k + 1) else (true, 0))
          else if s.settings.hdr.thermalLimit - 128 ≤ (u.photo.input 3).average then (true, 0)
          else if k < 255 then (true, k + 1) else (false, 0))
      ∧ u.life.causes = { s.life.causes with
          lampLow := u.photo.lampLow, thermal := u.photo.thermal }
      ∧ (let lampRaised := u.photo.lampLow && !s.photo.lampLow
         let thermalRaised := u.photo.thermal && !s.photo.thermal
         let lampFault : FaultRecord :=
          { kind := .lampLow, frame := s.timer.number, state := st,
            detail := u.photo.capacity }
         (lampRaised = false → thermalRaised = false →
            u.faults = s.faults ∧ u.life.state = st ∧ u.life.handover = s.life.handover)
          ∧ (lampRaised = true → thermalRaised = false → u.faults = s.faults.report lampFault)
          ∧ (thermalRaised = true → u.faults =
              (if lampRaised then s.faults.report lampFault else s.faults).report
                { kind := .thermal, frame := s.timer.number,
                  state := if lampRaised ∧ (s.life.state = .joining ∨ s.life.state = .lit)
                    then .leaving else st,
                  detail := (u.photo.input 3).average })
          ∧ (lampRaised = true ∨ thermalRaised = true →
              s.life.state = .joining ∨ s.life.state = .lit →
              u.life.state = .leaving ∧ u.life.handover = some
                { kind := .leave, start := s.timer.number + BitVec.ofNat 16 s.settings.hdr.lead,
                  code := s.settings.hdr.faultCode,
                  reason := if lampRaised then .lampLow else .thermal }
              ∧ u.bus.handoverWanted = true ∧ u.bus.statusWanted = true
              ∧ ∀ ramp : RampRecord, (s.life.state = .lit ∧ ramp.base = 64
                  ∨ s.life.state = .joining ∧ ∃ old, s.life.fadeRamp = some old
                    ∧ ramp.base = old.value (s.timer.number + BitVec.ofNat 16 s.settings.hdr.lead - 1)) →
                ramp.start = s.timer.number + BitVec.ofNat 16 s.settings.hdr.lead →
                ramp.step = 64 / 2 ^ min s.settings.hdr.faultCode 6 → ramp.up = false →
                u.life.fadeRamp = some ramp ∧ u.life.fade = ramp.value s.timer.number))


/-! ### The receive half of the bus -/

/-- R104, R110, R118: the eleven bits of a character, and what the assembler makes of it. The start bit is 0, the data
follow least significant bit first, then the mark and the stop bit; eleven bits that do not begin with a start bit are no
character (assumption 2). While the station sends, the character goes to the
echo comparison. Otherwise (`noteStart` marks the line busy from the character's start bit, assumption 14, stated by
`StartBitMakesTheLineBusy`) a framing error discards the message in progress, a lead begins a message, with the
straddle mark set when a frame mark came since its start bit (R113), and discards one in progress, the next character is
the length, which must not be above 60, and then payload characters follow. With no message in progress anything but a
lead is ignored; and while `deaf` is set, after a difference in a later character of an own message, every character is
(R121; until when is assumption 33). -/
def Obligations.CharacterReachesTheAssembler : Prop :=
  (∀ ch : Character, readCharacter ch.bits = some ch ∧ ch.bits.getLsbD 0 = false
      ∧ (∀ i, i < 8 → ch.bits.getLsbD (1 + i) = ch.data.getLsbD i)
      ∧ ch.bits.getLsbD 9 = ch.mark ∧ ch.bits.getLsbD 10 = ch.stop)
  ∧ (∀ bits : CharacterBits, bits.getLsbD 0 = false → ∃ ch : Character, bits = ch.bits)
  ∧ (∀ (t : Nat) (bits : CharacterBits) (s : State), s.calm → bits.getLsbD 0 = true →
      exec (.characterReceived t bits) s = .next (refreshTx (advanceTo t s)))
  ∧ ∀ (t : Nat) (ch : Character) (s : State), s.calm →
    (s.bus.txState = .sending →
      exec (.characterReceived t ch.bits) s = .next (refreshTx (advanceTo t s)))
    ∧ (s.bus.txState ≠ .sending → ∀ v, v = noteStart (advanceTo t s) →
      ∀ broken : FaultUnit, broken = { s.faults with counters := { s.faults.counters with
          broken := min 65535 (s.faults.counters.broken + 1) } } →
      (v.bus.deaf = true → exec (.characterReceived t ch.bits) s = .next (refreshTx v))
      ∧ (s.bus.assembly = none → (ch.stop = false ∨ ch.mark = false) →
        exec (.characterReceived t ch.bits) s = .next (refreshTx v))
      ∧ (v.bus.deaf = false → s.bus.assembly ≠ none → ch.stop = false →
        exec (.characterReceived t ch.bits) s = .next (refreshTx
          { v with bus := { v.bus with assembly := none }, faults := broken }))
      ∧ (v.bus.deaf = false → ch.stop = true → ch.mark = true →
        exec (.characterReceived t ch.bits) s = .next (refreshTx
          { v with
            bus := { v.bus with assembly := some {
              lead := ch.data, length := none, payload := [], lastStart := v.bus.lastStart,
              straddle := v.bus.markSince } },
            faults := if s.bus.assembly = none then s.faults else broken }))
      ∧ ∀ a, v.bus.deaf = false → v.bus.assembly = some a → ch.stop = true → ch.mark = false →
        (a.length = none → 60 < ch.data.toNat →
          exec (.characterReceived t ch.bits) s = .next (refreshTx
            { v with bus := { v.bus with assembly := none }, faults := broken }))
        ∧ (a.length = none → ch.data.toNat ≤ 60 →
          exec (.characterReceived t ch.bits) s = .next (refreshTx
            { v with bus := { v.bus with
                assembly := some { a with length := some ch.data.toNat } } }))
        ∧ (∀ n, a.length = some n → a.payload.length < n →
          exec (.characterReceived t ch.bits) s = .next (refreshTx
            { v with bus := { v.bus with
                assembly := some { a with payload := a.payload ++ [ch.data] } } })))

/-- R97, R112: the character after the last payload character is the check character; the complete message is
settled by the first step of R112 that applies: a wrong check counts BROKEN; an unassigned kind or a sender that
does not go with the kind counts DISCARD; the own number reports DUPLICATE_STATION; in SLEEP all but an ORDER, and
everywhere an ANSWER, is dropped; a full queue reports RX_OVERFLOW and counts OVERFLOW; otherwise the message goes to
the queue's tail with its straddle tag. -/
def Obligations.CompleteMessageIsTested : Prop :=
  ∀ (t : Nat) (ch : Character) (s v : State) (a : Assembly) (n kind sender : Nat), s.calm →
    s.bus.txState ≠ .sending → ch.stop = true → ch.mark = false →
    noteStart (advanceTo t s) = v → v.bus.deaf = false → v.bus.assembly = some a → a.length = some n → n ≤ a.payload.length →
    kind = a.lead.toNat / 32 → sender = a.lead.toNat % 32 →
    exec (.characterReceived t ch.bits) s = .next (refreshTx (
      let dropped := { v with bus := { v.bus with assembly := none } }
      let record (k : FaultKind) : FaultRecord :=
        { kind := k, frame := s.timer.number, state := s.life.state, detail := kind }
      if crc8 (a.lead :: BitVec.ofNat 8 n :: a.payload) ≠ ch.data then
        { dropped with faults := { s.faults with counters := { s.faults.counters with
            broken := min 65535 (s.faults.counters.broken + 1) } } }
      else if 5 ≤ kind ∨ (kind ≠ 3 ∧ sender = 0) ∨ (kind = 3 ∧ sender ≠ 0) then
        { dropped with faults := { s.faults with counters := { s.faults.counters with
            discard := min 65535 (s.faults.counters.discard + 1) } } }
      else if s.stn ≠ 0 ∧ sender = s.stn then
        { dropped with faults := s.faults.report (record .duplicateStation) }
      else if s.life.state = .sleep ∧ kind ≠ 3 then dropped
      else if kind = 4 then dropped
      else if 8 ≤ s.bus.rxQueue.length then
        { dropped with faults := { s.faults.report (record .rxOverflow) with
            counters := { s.faults.counters with
              overflow := min 65535 (s.faults.counters.overflow + 1) } } }
      else
        { v with bus := { v.bus with
            assembly := none,
            rxQueue := s.bus.rxQueue ++ [{
              kind := if kind = 0 then .status else if kind = 1 then .join
                else if kind = 2 then .leave else .order,
              sender := sender, payload := a.payload, straddle := a.straddle }] } }))

/-- R104, R111, R117, R118: a start bit that the station did not drive restarts the assembler's timeout, puts a gap of 24 in
force from it, and sends a transmitter in GAP, BACKOFF or LEAD to GAP with what is left of its back-off; a station
that is sending sees its own. A character completed no later than the 11 bit times after the last start bit began with that;
one completed later began 10.5 bit times before its completion, at the middle of its stop bit, with a start bit that was not
told (assumption 14, DESIGN CHOICE). Twenty-two bit times after its last start bit a message in progress is discarded as BROKEN; with none in
progress the timeout does not run, and nothing happens (assumption 2). A start bit that comes that long after the last
one ends what R121 has ignored (assumption 33). -/
def Obligations.StartBitMakesTheLineBusy : Prop :=
  (∀ (t : Nat) (s : State), s.calm → s.bus.txState = .sending →
      exec (.startBit t) s = .next (refreshTx (advanceTo t s)))
    ∧ (∀ (t t' : Nat) (s : State), s.calm → s.bus.txState ≠ .sending → t' = max t s.now →
      exec (.startBit t) s = .next (refreshTx { advanceTo t s with bus := { s.bus with
        lastStart := t', gap := 24, markSince := s.timer.lastMark.any fun m => decide (t' < m),
        assembly := s.bus.assembly.map fun a => { a with lastStart := t' },
        deaf := s.bus.deaf && decide (t' < s.bus.lastStart + 22 * s.bitTime),
        txState := if s.bus.txState = .idle then .idle else .gap,
        txSince := if s.bus.txState = .idle then s.bus.txSince else t',
        backoff := if s.bus.txState = .backoff
          then s.bus.backoff - (t' - s.bus.txSince) / s.bitTime else s.bus.backoff } }))
    ∧ (∀ s : State, s.now ≤ s.bus.lastStart + 11 * s.bitTime → noteStart s = s)
    ∧ (∀ (start : Nat) (s : State), s.bus.lastStart + 11 * s.bitTime < s.now →
        2 * s.now = 2 * start + 21 * s.bitTime → noteStart s = foreignStart start s)
    ∧ ∀ s : State, s.calm →
      (∀ a, s.bus.assembly = some a →
        exec .assemblerTimeout s = .next (refreshTx { advanceTo (a.lastStart + 22 * s.bitTime) s with
          bus := { s.bus with assembly := none },
          faults := { s.faults with counters := { s.faults.counters with
            broken := min 65535 (s.faults.counters.broken + 1) } } }))
      ∧ (s.bus.assembly = none → exec .assemblerTimeout s = .next (refreshTx s))

/-- R104, R105, R106, R110, R112, R118: the check character: the register begins at 0xFF, each byte goes into it by
exclusive-or, and eight shifts toward its top follow, with 0x31 put in by exclusive-or after each that shifts out a 1; it
closes the lead, the length and the payload. And what a station sends, another one reads. The driver holds the line at 1 in LEAD and in
SENDING drives the bits of the message's characters, eleven bit times each, the mark bit on the lead alone; otherwise it
is disabled. The characters of a message as it is built are assembled into one message of the same kind, sender and
payload, which then meets the tests of R112 that follow the check character (`keepMessage`, whose outcome
`CompleteMessageIsTested` states). -/
def Obligations.MessageReadsBack : Prop :=
  (∀ shift : Byte → Byte, (∀ r, shift r = if r.getLsbD 7 then (r <<< 1) ^^^ 0x31 else r <<< 1) →
      crc8 [] = 0xFF
      ∧ ∀ bs b, crc8 (bs ++ [b])
          = shift (shift (shift (shift (shift (shift (shift (shift (crc8 bs ^^^ b)))))))))
    ∧ [MsgKind.status, .join, .leave, .order, .answer].map MsgKind.code = [0, 1, 2, 3, 4]
    ∧ (∀ (kind : MsgKind) (sender : Nat) (payload body : List Byte),
      body = [BitVec.ofNat 8 (kind.code * 32 + sender), BitVec.ofNat 8 payload.length] ++ payload →
      messageBytes kind sender payload = body ++ [crc8 body])
    ∧ (∀ (s : State) (t : Nat),
      (s.bus.txState = .lead → s.drivenLevel t = some true)
      ∧ (s.bus.txState = .idle ∨ s.bus.txState = .gap ∨ s.bus.txState = .backoff →
          s.drivenLevel t = none)
      ∧ ∀ (i j : Nat) (b : Byte) (level : Bool), s.bus.txState = .sending → s.bus.message[j]? = some b →
          i < 11 → s.bus.txSince + (11 * j + i) * s.bitTime ≤ t →
          t < s.bus.txSince + (11 * j + i + 1) * s.bitTime →
          level = (if i = 0 then false else if i ≤ 8 then b.getLsbD (i - 1)
            else if i = 9 then decide (j = 0) else true) →
          s.drivenLevel t = some level ∧ (Character.mk true (j == 0) b).bits.getLsbD i = level)
    ∧ ∀ (kind : MsgKind) (sender : Nat) (payload : List Byte) (s : State),
    sender < 32 → payload.length ≤ 60 → s.bus.assembly = none →
    ((messageBytes kind sender payload).zipIdx.map fun b =>
        Character.mk true (b.2 == 0) b.1).foldl (fun u ch => assemble ch u) s
      = keepMessage
          { kind := kind, sender := sender, payload := payload, straddle := s.bus.markSince } s

/-! ### Messages applied -/

/-- R46, R77, R84, R89, R90, R92, R107, R114, R138: a STATUS at the head of the queue leaves it. In START and SLEEP it is dropped; one that
fails the checks of R89 counts DISCARD; otherwise entry n is filled whole, the frame number is adopted when its tag is
clear and the unset flag is set or it is ahead, each enabled zone naming n takes its target (in the sky) and its
shape check, where a mismatch flag that changes sets STATUS-wanted and one newly set reports SHAPE_MISMATCH, the scale target is recomputed,
and a level record that is ahead, or any while the level is unset, is adopted, clamped, and sets STATUS-wanted. (The entry is written before any block is told; that the zones take their target, and a fault record its frame, at the
number already adopted is assumption 11, DESIGN CHOICE.) And the reading of a payload: the checks of
R89, the layout of R107, capacity and black clamped to 4095 and a ramp code above 6 taken as 6. -/
def Obligations.StatusFillsEntryAndTellsBlocks : Prop :=
  (∀ p : List Byte,
      (readStatus p = none ↔ ¬(p.length = 23 + 2 * byteAt p 22 ∧ byteAt p 22 ≤ 8 ∧ byteAt p 2 ≤ 5
        ∧ byteAt p 8 ≤ 2))
      ∧ ∀ b, readStatus p = some b →
        b.frame.toNat = wordAt p 0
        ∧ (b.state = match byteAt p 2 with
            | 0 => .listen | 1 => .joining | 2 => .lit | 3 => .leaving | 4 => .dark | _ => .service)
        ∧ b.capacity = min 4095 (wordAt p 3) ∧ b.black = min 4095 (wordAt p 5)
        ∧ b.conditions = {
            lampLow := (p.getD 7 0).getLsbD 0, thermal := (p.getD 7 0).getLsbD 1,
            inputLost := (p.getD 7 0).getLsbD 2, lineStuck := (p.getD 7 0).getLsbD 3 }
        ∧ (byteAt p 8 = 0 → b.handover = none)
        ∧ (byteAt p 8 ≠ 0 → b.handover = some {
            kind := if byteAt p 8 = 1 then .join else .leave, start := BitVec.ofNat 16 (wordAt p 9),
            code := min 6 (byteAt p 11) })
        ∧ b.levelRecord = {
            serial := BitVec.ofNat 16 (wordAt p 12), startLevel := wordAt p 14, target := wordAt p 16,
            start := BitVec.ofNat 16 (wordAt p 18), ramp := wordAt p 20 }
        ∧ b.zoneList.length = byteAt p 22
        ∧ ∀ i, i < byteAt p 22 → b.zoneList[i]? = some (byteAt p (23 + 2 * i), byteAt p (24 + 2 * i)))
  ∧ ∀ (s : State) (m : Message) (rest : List Message), s.calm → s.bus.rxQueue = m :: rest →
    m.kind = .status →
    (s.life.state = .start ∨ s.life.state = .sleep →
      exec .statusApplied s = .next (refreshTx { s with bus := { s.bus with rxQueue := rest } }))
    ∧ (s.life.state ≠ .start → s.life.state ≠ .sleep →
      (readStatus m.payload = none →
        exec .statusApplied s = .next (refreshTx { s with
          bus := { s.bus with rxQueue := rest },
          faults := { s.faults with counters := { s.faults.counters with
            discard := min 65535 (s.faults.counters.discard + 1) } } }))
      ∧ ∀ b, readStatus m.payload = some b → 1 ≤ m.sender → m.sender ≤ 31 → s.peers.length = 31 →
          s.zones.length = 8 →
        ∃ u, exec .statusApplied s = .next u ∧ u.bus.rxQueue = rest
          ∧ u.peer m.sender = {
              state := .live, reported := some b.state, capacity := b.capacity, black := b.black,
              frame := b.frame, age := 0, handover := b.handover, levelCopy := some b.levelRecord,
              conditions := b.conditions, zoneList := b.zoneList,
              heard := min 65535 ((s.peer m.sender).heard + 1) }
          ∧ (∀ k, k ≠ m.sender → u.peer k = s.peer k)
          ∧ (let adopted := !m.straddle && (s.timer.unset || ahead b.frame s.timer.number)
             u.timer = { s.timer with
               number := if adopted then b.frame else s.timer.number,
               unset := s.timer.unset && !adopted }
             ∧ u.faults.counters = { s.faults.counters with
               adopt := if adopted then min 65535 (s.faults.counters.adopt + 1)
                 else s.faults.counters.adopt })
          ∧ (∀ z, (s.zone z).enabled = false ∨ (s.zone z).neighbour ≠ m.sender →
              u.zone z = s.zone z)
          ∧ (∀ z, (s.zone z).enabled = true → (s.zone z).neighbour = m.sender →
              u.zone z = ((if s.life.state.inSky
                then (s.zone z).apply u.timer.number s.lossStep (targetOf (u.peer m.sender))
                else s.zone z).checkShape s.stn b.zoneList))
          ∧ ((∀ z, (s.zone z).enabled = true → (s.zone z).neighbour = m.sender →
                (u.zone z).mismatch = (s.zone z).mismatch) →
              u.faults.record = s.faults.record ∧ u.faults.overflow = s.faults.overflow)
          ∧ (∀ z, (u.zone z).mismatch ≠ (s.zone z).mismatch → u.bus.statusWanted = true)
          ∧ (∀ z, (s.zone z).mismatch = false → (u.zone z).mismatch = true →
              ((∀ y, y ≠ z → (s.zone y).mismatch = false → (u.zone y).mismatch = false) →
                u.faults.record = (s.faults.report
                  { kind := .shapeMismatch, frame := u.timer.number, state := s.life.state,
                    detail := z }).record))
          ∧ (let adopted := s.level.unset || ahead b.levelRecord.serial s.level.record.serial
             u.level = { s.level with
               scaleTarget := scaleTargetOf s.level.capacity s.settings.hdr.floor u.peers,
               unset := s.level.unset && !adopted,
               record := if adopted then { b.levelRecord with
                   startLevel := min 1024 b.levelRecord.startLevel,
                   target := min 1024 b.levelRecord.target, ramp := min 1024 b.levelRecord.ramp }
                 else s.level.record }
             ∧ (adopted = true → u.bus.statusWanted = true))
          ∧ u.life = s.life ∧ u.photo = s.photo ∧ u.input = s.input ∧ u.buffers = s.buffers
          ∧ u.schedule = s.schedule ∧ u.console = s.console ∧ u.eeprom = s.eeprom)

/-- R89, R91, R92, R114, R138: a JOIN or a LEAVE at the head of the queue leaves it. In START and SLEEP it is dropped;
one whose length is not 8 counts DISCARD; otherwise the entry takes the state JOINING or LEAVING, the record, the
capacity and the frame number, and its black, level copy, conditions and zone list stay; the frame number is
offered, the enabled zones naming n take their targets in the sky, and the scale target is recomputed. No shape check is
made and no level record taken. (That the zones take their targets at the number already adopted is assumption 11, DESIGN
CHOICE.) -/
def Obligations.NoticeMarksEntryAndTellsBlocks : Prop :=
  ∀ (s : State) (m : Message) (rest : List Message) (c : Instr) (kind : HandoverKind), s.calm →
    s.bus.rxQueue = m :: rest →
    (c = .joinApplied ∧ m.kind = .join ∧ kind = .join
      ∨ c = .leaveApplied ∧ m.kind = .leave ∧ kind = .leave) →
    (s.life.state = .start ∨ s.life.state = .sleep →
      exec c s = .next (refreshTx { s with bus := { s.bus with rxQueue := rest } }))
    ∧ (s.life.state ≠ .start → s.life.state ≠ .sleep →
      (m.payload.length ≠ 8 →
        exec c s = .next (refreshTx { s with
          bus := { s.bus with rxQueue := rest },
          faults := { s.faults with counters := { s.faults.counters with
            discard := min 65535 (s.faults.counters.discard + 1) } } }))
      ∧ (m.payload.length = 8 → 1 ≤ m.sender → m.sender ≤ 31 → s.peers.length = 31 →
        ∃ u, exec c s = .next u ∧ u.bus.rxQueue = rest
          ∧ u.peer m.sender = { s.peer m.sender with
              state := .live, reported := some (if kind = .join then .joining else .leaving),
              capacity := min 4095 (wordAt m.payload 6),
              frame := BitVec.ofNat 16 (wordAt m.payload 0), age := 0,
              handover := some {
                kind := kind, start := BitVec.ofNat 16 (wordAt m.payload 2),
                code := min 6 (byteAt m.payload 4) },
              heard := min 65535 ((s.peer m.sender).heard + 1) }
          ∧ (∀ k, k ≠ m.sender → u.peer k = s.peer k)
          ∧ (let frame : FrameNo := BitVec.ofNat 16 (wordAt m.payload 0)
             let adopted := !m.straddle && (s.timer.unset || ahead frame s.timer.number)
             u.timer = { s.timer with
               number := if adopted then frame else s.timer.number,
               unset := s.timer.unset && !adopted }
             ∧ u.faults = { s.faults with counters := { s.faults.counters with
               adopt := if adopted then min 65535 (s.faults.counters.adopt + 1)
                 else s.faults.counters.adopt } })
          ∧ (∀ z, u.zone z
              = if s.life.state.inSky ∧ (s.zone z).enabled = true ∧ (s.zone z).neighbour = m.sender
                then (s.zone z).apply u.timer.number s.lossStep (targetOf (u.peer m.sender))
                else s.zone z)
          ∧ u.level = { s.level with
              scaleTarget := scaleTargetOf s.level.capacity s.settings.hdr.floor u.peers }
          ∧ u.life = s.life ∧ u.photo = s.photo ∧ u.input = s.input ∧ u.buffers = s.buffers
          ∧ u.schedule = s.schedule ∧ u.console = s.console ∧ u.eeprom = s.eeprom))

/-- R34, R37, R39, R40, R41, R45: the target that a neighbour's entry gives a zone, what each target does to it, and the
shape check against the neighbour's zone list. A loss ramp starts at f + 1 from what the fill has reached, and a yielding
zone whose ramp still stands at 64 is SOLO at once; a ramp
that the zone already runs, whatever its base, is not begun again; and a new one starts from the old record's value at
N - 1, or from the fill. -/
def Obligations.ZoneTakesTargetAndShape : Prop :=
  (∀ e : PeerEntry,
      (e.state ≠ .live → targetOf e = .loss)
      ∧ (e.state = .live →
          (e.reported = some .lit → targetOf e = .shared)
          ∧ (e.reported = some .listen ∨ e.reported = some .dark ∨ e.reported = some .service →
              targetOf e = .loss)
          ∧ (∀ h, e.handover = some h → e.reported = some .joining → h.kind = .join →
              targetOf e = .ramp false h.start (64 / 2 ^ min h.code 6))
          ∧ (∀ h, e.handover = some h → e.reported = some .leaving → h.kind = .leave →
              targetOf e = .ramp true h.start (64 / 2 ^ min h.code 6))
          ∧ ((e.reported = some .joining ∧ ∀ h ∈ e.handover, h.kind ≠ .join)
              ∨ (e.reported = some .leaving ∧ ∀ h ∈ e.handover, h.kind ≠ .leave) →
              targetOf e = .unchanged)))
    ∧ (∀ (z : Zone) (f : FrameNo) (loss : Nat),
      (z.state = .wait → ∀ t, z.apply f loss t = z) ∧ z.apply f loss .unchanged = z
      ∧ (z.state = .filling ∨ z.state = .solo →
          z.apply f loss .shared = { z with state := .shared, ramp := none, m := 0 }
            ∧ z.apply f loss .loss = z)
      ∧ (z.state = .shared ∨ z.state = .yielding → z.apply f loss .shared = z)
      ∧ (z.state = .shared → z.apply f loss .loss = { z with
          state := .filling, m := 0,
          ramp := some { base := 0, start := f + 1, step := loss, up := true } })
      ∧ (∀ r, z.state = .yielding → z.ramp = some r → r.value f < 64 →
          z.apply f loss .loss = { z with
            state := .filling, m := r.value f,
            ramp := some { base := r.value f, start := f + 1, step := loss, up := true } })
      ∧ (∀ r, z.state = .yielding → z.ramp = some r → r.value f = 64 →
          z.apply f loss .loss = { z with state := .solo, ramp := none, m := 64 })
      ∧ (∀ up start step, z.state ≠ .wait →
          (∀ r, z.ramp = some r → r.up = up → r.start = start → r.step = step →
            z.apply f loss (.ramp up start step) = z)
          ∧ (∀ new : RampRecord, new = {
                base := match z.ramp with | some r => r.value (start - 1) | none => z.m,
                start := start, step := step, up := up } →
              (∀ r, z.ramp = some r → ¬(r.up = up ∧ r.start = start ∧ r.step = step)) →
              z.apply f loss (.ramp up start step) =
                if up then (if new.value f = 64 then { z with state := .solo, ramp := none, m := 64 }
                  else { z with state := .filling, ramp := some new, m := new.value f })
                else if new.value f = 0 then { z with state := .shared, ramp := none, m := 0 }
                  else { z with state := .yielding, ramp := some new, m := new.value f })))
    ∧ ∀ (z : Zone) (own : Nat) (pairs : List (Nat × Nat)),
      ((∀ p ∈ pairs, p.1 ≠ own) → z.checkShape own pairs = { z with
          agreedShape := z.configuredShape, mismatch := false, oneSided := true })
      ∧ ∀ before shape after, pairs = before ++ (own, shape) :: after → (∀ p ∈ before, p.1 ≠ own) →
          z.checkShape own pairs = { z with
            agreedShape := if own < z.neighbour then z.configuredShape else min 16 shape,
            mismatch := decide (min 16 shape ≠ z.configuredShape), oneSided := false }

/-! ### The console's orders -/

/-- R116, R177, R178, R179: an order command takes the order it names from the head of the queue, but in START, or with an
order in hand, it finds none. An order that does not name the station is dropped; an unknown code is answered UNKNOWN
and a wrong argument length BAD_ARG, nothing carried out; an ORDER shorter than 5 bytes counts DISCARD. An answer is made
only to a mask of 31 and by a station other than 0; it goes to the FIFO's tail, or with 4 there is dropped, counted
and reported. And the layout of an order, the argument bytes of each code, the result codes, and the code or item that each command
takes. (Which command a READ with bad arguments comes as is assumption 15.) -/
def Obligations.OrderIsTestedAndAnswered : Prop :=
  (∀ p : List Byte,
      (p.length < 5 → readOrder p = none)
      ∧ (5 ≤ p.length → readOrder p = some {
          serial := BitVec.ofNat 16 (wordAt p 0), target := byteAt p 2 % 32, mask := byteAt p 3 % 32,
          code := byteAt p 4, args := p.drop 5 }))
    ∧ [1, 2, 3, 4, 5, 6, 7, 8, 9, 10].map argumentBytes = [7, 0, 0, 3, 2, 0, 34, 0, 0, 0]
    ∧ [OrderResult.done, .busy, .locked, .badArg, .notNow, .unknown].map OrderResult.code
      = [0, 1, 2, 3, 4, 5]
    ∧ (∀ (o : Order) (c : Instr) (code : Nat),
        (c, code) ∈ [(Instr.level, 1), (.dark, 2), (.light, 3), (.pattern, 4), (.clear, 6), (.store, 7),
          (.restart, 8), (.sleep, 9), (.wake, 10)] → (c.takesOrder o = true ↔ o.code = code))
    ∧ (∀ (o : Order) (c : Instr) (item : Nat), o.args.length = 2 → byteAt o.args 0 ≤ 6 →
        (c, item) ∈ [(Instr.readStartRecord, 0), (.readCounters, 1), (.readPeerEntry, 2), (.readZone, 3),
          (.readFaultRecord, 4), (.readPhotometer, 5), (.readLevels, 6)] →
        (c.takesOrder o = true ↔ o.code = 5 ∧ byteAt o.args 0 = item))
    ∧ (∀ (s : State) (m : Message) (rest : List Message), s.bus.rxQueue = m :: rest → m.kind = .order →
        s.life.state ≠ .start → s.console.inHand = none → s.orderAtHead = readOrder m.payload)
    ∧ (∀ s : State, s.life.state = .start ∨ s.console.inHand ≠ none → s.orderAtHead = none)
    ∧ (∀ (c : Instr) (s : State), s.calm → (∃ o, c.takesOrder o = true) →
        (∀ o, s.orderAtHead = some o → c.takesOrder o = false) → exec c s = .next (refreshTx s))
    ∧ (∀ (c : Instr) (s : State) (o : Order) (p : State), s.calm → s.orderAtHead = some o →
        c.takesOrder o = true →
        p = { s with bus := { s.bus with rxQueue := s.bus.rxQueue.tail } } →
        (((s.stn ^^^ o.target) &&& o.mask ≠ 0) → exec c s = .next (refreshTx p))
        ∧ (((s.stn ^^^ o.target) &&& o.mask = 0) →
            (o.code < 1 ∨ 10 < o.code → exec c s = .next (refreshTx (answerOrder o .unknown [] p)))
            ∧ (1 ≤ o.code → o.code ≤ 10 → o.args.length ≠ argumentBytes o.code →
                exec c s = .next (refreshTx (answerOrder o .badArg [] p)))))
    ∧ (∀ (s : State) (m : Message) (rest : List Message), s.calm → s.bus.rxQueue = m :: rest →
        m.kind = .order → m.payload.length < 5 → s.life.state ≠ .start → s.console.inHand = none →
        exec .orderTooShort s = .next (refreshTx { s with
          bus := { s.bus with rxQueue := rest },
          faults := { s.faults with counters := { s.faults.counters with
            discard := min 65535 (s.faults.counters.discard + 1) } } }))
    ∧ ∀ (o : Order) (r : OrderResult) (data : List Byte) (s : State),
        (o.mask ≠ 31 ∨ s.stn = 0 → answerOrder o r data s = s)
        ∧ (o.mask = 31 → s.stn ≠ 0 →
            (s.bus.answers.length < 4 → answerOrder o r data s = { s with bus := { s.bus with
              answers := s.bus.answers
                ++ [{ serial := o.serial, code := o.code, result := r.code, bytes := data }] } })
            ∧ (4 ≤ s.bus.answers.length → answerOrder o r data s = { s with
                faults := { s.faults with counters := { s.faults.counters with
                    answerDrop := min 65535 (s.faults.counters.answerDrop + 1) } }.report {
                  kind := .answerOverflow, frame := s.timer.number, state := s.life.state,
                  detail := o.code } }))

/-- R79, R80, R82, R180: a LEVEL order makes the new record, its levels and ramp clamped to 1024, its start level the old
record's value at N - 1, with "next" standing for f + L; a start mode above 1 is BAD_ARG. And what a record's
value at a frame is: the start level before the start, then the quotient rounded toward zero. (DESIGN CHOICES where rules
differ: the old record's value is that of the record as it stands, rewritten or not, at every N - 1, assumption 31; a start exactly 32768
marks ahead is not reached, assumption 28; the order's record stands whatever serial a STATUS before it brought,
assumption 34.) -/
def Obligations.LevelOrderReplacesRecord : Prop :=
  (∀ (s p : State) (o : Order), s.ordered .level o → o.args.length = 7 →
      p = { s with bus := { s.bus with rxQueue := s.bus.rxQueue.tail } } →
      (1 < byteAt o.args 6 → exec .level s = .next (refreshTx (answerOrder o .badArg [] p)))
      ∧ (∀ n : FrameNo, (byteAt o.args 6 = 0 ∧ n = BitVec.ofNat 16 (wordAt o.args 4)
            ∨ byteAt o.args 6 = 1 ∧ n = s.timer.number + BitVec.ofNat 16 s.settings.hdr.lead) →
          exec .level s = .next (refreshTx (answerOrder o .done [] { p with
            level := { s.level with
              unset := false,
              record := {
                serial := o.serial, startLevel := s.level.record.value (n - 1),
                target := min 1024 (wordAt o.args 0), start := n,
                ramp := min 1024 (wordAt o.args 2) } },
            bus := { p.bus with statusWanted := true } }))))
    ∧ ∀ (r : LevelRecord) (f : FrameNo),
      (32767 < (f - r.start).toNat → r.value f = r.startLevel)
      ∧ ((f - r.start).toNat ≤ 32767 → r.ramp = 0 → r.value f = r.target)
      ∧ ∀ k, k = min ((f - r.start).toNat + 1) r.ramp → (f - r.start).toNat ≤ 32767 → r.ramp ≠ 0 →
          (r.startLevel ≤ r.target →
            r.value f = r.startLevel + (r.target - r.startLevel) * k / r.ramp)
          ∧ (r.target ≤ r.startLevel →
              r.value f = r.startLevel - (r.startLevel - r.target) * k / r.ramp)

/-- R13, R56, R62, R65, R149, R180, R183: DARK sets hold-dark and raises HOLD, at which JOINING and LIT leave the sky with
reason HOLD; LIGHT clears both, but in SERVICE is NOT_NOW; PATTERN sets the source, the flat level for FLAT alone, and a
source other than INPUT clears the INPUT cause; CLEAR empties the fault record, the overflow count and every
counter. Each touches nothing else but the queue and the answer. -/
def Obligations.DarkLightPatternAndClearAct : Prop :=
  ∀ (s p : State) (o : Order), p = { s with bus := { s.bus with rxQueue := s.bus.rxQueue.tail } } →
    (s.ordered .dark o → o.args = [] →
      (s.life.causes.hold = true ∨ s.life.state ≠ .joining ∧ s.life.state ≠ .lit →
        exec .dark s = .next (refreshTx (answerOrder o .done [] { p with
          life := { s.life with holdDark := true, causes := { s.life.causes with hold := true } } })))
      ∧ (∀ ramp : RampRecord, s.life.causes.hold = false →
          (s.life.state = .lit ∧ ramp.base = 64
            ∨ s.life.state = .joining ∧ ∃ old, s.life.fadeRamp = some old
                ∧ ramp.base = old.value (s.timer.number + BitVec.ofNat 16 s.settings.hdr.lead - 1)) →
          ramp.start = s.timer.number + BitVec.ofNat 16 s.settings.hdr.lead →
          ramp.step = 64 / 2 ^ min s.settings.hdr.leaveCode 6 → ramp.up = false →
          exec .dark s = .next (refreshTx (answerOrder o .done [] { p with
            life := { s.life with
              state := .leaving, holdDark := true, causes := { s.life.causes with hold := true },
              fade := ramp.value s.timer.number, fadeRamp := some ramp,
              handover := some {
                kind := .leave, start := ramp.start, code := s.settings.hdr.leaveCode,
                reason := .hold } },
            level := { s.level with
              scaleTarget := scaleTargetOf s.level.capacity s.settings.hdr.floor s.peers },
            bus := { p.bus with handoverWanted := true, statusWanted := true } }))))
    ∧ (s.ordered .light o → o.args = [] →
        (s.life.state = .service → exec .light s = .next (refreshTx (answerOrder o .notNow [] p)))
        ∧ (s.life.state ≠ .service →
            exec .light s = .next (refreshTx (answerOrder o .done [] { p with
              life := { s.life with
                holdDark := false, causes := { s.life.causes with hold := false } } }))))
    ∧ (s.ordered .pattern o → o.args.length = 3 →
        (3 < byteAt o.args 0 → exec .pattern s = .next (refreshTx (answerOrder o .badArg [] p)))
        ∧ (byteAt o.args 0 ≤ 3 →
            exec .pattern s = .next (refreshTx (answerOrder o .done [] { p with
              patternSource := if byteAt o.args 0 = 0 then .input
                else if byteAt o.args 0 = 1 then .flat
                else if byteAt o.args 0 = 2 then .grid else .zonemap,
              flatLevel := if byteAt o.args 0 = 1 then wordAt o.args 1 else s.flatLevel,
              life := { s.life with causes := { s.life.causes with
                input := s.life.causes.input && decide (byteAt o.args 0 = 0) } } }))))
    ∧ (s.ordered .clear o → o.args = [] →
        exec .clear s = .next (refreshTx (answerOrder o .done [] { p with faults := {
          record := none, overflow := 0,
          counters := {
            collision := 0, abandon := 0, broken := 0, discard := 0, overflow := 0, answerDrop := 0,
            early := 0, adopt := 0, drop := 0, repeated := 0, trunc := 0, cut := 0 } } })))

/-- R49, R103, R163, R181, R185, R186: each READ answers DONE with its item's data and changes nothing but the queue and the
answer; an index outside its range, or an item above 6, is BAD_ARG. And the layout of the data: every byte of every item, the codes of
states and fault kinds among them. (The CHECK_FAIL section byte while CHECK_FAIL is clear is assumption 29.) -/
def Obligations.ReadsReportWhatOwnersHold : Prop :=
  (∀ (s p : State) (o : Order), o.args.length = 2 →
      p = { s with bus := { s.bus with rxQueue := s.bus.rxQueue.tail } } →
      ∀ c data, (c = Instr.readStartRecord ∧ byteAt o.args 0 = 0 ∧ data = readStart s
          ∨ c = .readCounters ∧ byteAt o.args 0 = 1 ∧ data = readCounterBlock s
          ∨ c = .readPeerEntry ∧ byteAt o.args 0 = 2 ∧ 1 ≤ byteAt o.args 1 ∧ byteAt o.args 1 ≤ 31
            ∧ data = readPeer (s.peer (byteAt o.args 1))
          ∨ c = .readZone ∧ byteAt o.args 0 = 3 ∧ byteAt o.args 1 ≤ 7
            ∧ data = readZoneRecord (s.zone (byteAt o.args 1))
          ∨ c = .readFaultRecord ∧ byteAt o.args 0 = 4 ∧ data = readFaults s
          ∨ c = .readPhotometer ∧ byteAt o.args 0 = 5 ∧ data = readPhoto s
          ∨ c = .readLevels ∧ byteAt o.args 0 = 6 ∧ data = readLevelItem s) →
        s.ordered c o → exec c s = .next (refreshTx (answerOrder o .done data p)))
    ∧ (∀ (s p : State) (o : Order) (c : Instr), o.args.length = 2 → o.code = 5 →
        p = { s with bus := { s.bus with rxQueue := s.bus.rxQueue.tail } } → s.ordered c o →
        (6 < byteAt o.args 0
          ∨ byteAt o.args 0 = 2 ∧ (byteAt o.args 1 = 0 ∨ 31 < byteAt o.args 1)
          ∨ byteAt o.args 0 = 3 ∧ 7 < byteAt o.args 1) →
        exec c s = .next (refreshTx (answerOrder o .badArg [] p)))
    ∧ ([StationState.listen, .joining, .lit, .leaving, .dark, .service, .start, .measure, .sleep].map
          StationState.code = [0, 1, 2, 3, 4, 5, 6, 7, 8]
        ∧ [FaultKind.lineStuck, .lampLow, .thermal, .inputLost, .busAbandon, .rxOverflow, .answerOverflow,
          .shapeMismatch, .duplicateStation, .imageCheck, .zoneConfig].map FaultKind.code
            = [0, 1, 2, 3, 4, 5, 6, 7, 8, 9, 10])
    ∧ (∀ (s : State) (r : StartRecord) (d : List Byte), s.loader.checks.length = 6 →
        r = s.loader.record → d = readStart s →
        d.length = 12
        ∧ byteAt d 0 = (match r.resetCause with | .power => 0 | .pin => 1 | .restart => 2)
        ∧ byteAt d 1 = r.straps.stn.val
        ∧ byteAt d 2 = r.straps.long.toNat + 2 * r.straps.mirx.toNat + 4 * r.straps.flipy.toNat
            + 8 * r.straps.svc.toNat
        ∧ byteAt d 3 = r.blank.toNat + 2 * r.svcStrap.toNat + 4 * r.stationZero.toNat
            + 8 * r.checkFail.isSome.toNat
        ∧ byteAt d 4 = r.checkFail.getD 0 % 256
        ∧ byteAt d 5 = r.clamped % 256
        ∧ ∀ i, i < 6 → byteAt d (6 + i) = (match s.loader.checks.getD i .notChecked with
            | .notChecked => 0 | .passed => 1 | .failed => 2))
    ∧ (∀ (s : State) (d : List Byte), d = readCounterBlock s → d.length = 27
        ∧ (∀ i, i < 12 → wordAt d (2 * i) = s.faults.counters.values.getD i 0 % 65536)
        ∧ s.faults.counters.values = [s.faults.counters.collision, s.faults.counters.abandon,
            s.faults.counters.broken, s.faults.counters.discard, s.faults.counters.overflow,
            s.faults.counters.answerDrop, s.faults.counters.early, s.faults.counters.adopt,
            s.faults.counters.drop, s.faults.counters.repeated, s.faults.counters.trunc,
            s.faults.counters.cut]
        ∧ byteAt d 24 = (match s.input.link with | .idle => 0 | .receiving => 1 | .lost => 2)
        ∧ wordAt d 25 = s.input.hold % 65536)
    ∧ (∀ (e : PeerEntry) (d : List Byte), d = readPeer e → d.length = 45
        ∧ byteAt d 0 = (match e.state with | .absent => 0 | .live => 1 | .lost => 2)
        ∧ byteAt d 1 = (match e.reported with | none => 255 | some st => st.code)
        ∧ wordAt d 2 = e.capacity % 65536 ∧ wordAt d 4 = e.black % 65536
        ∧ wordAt d 6 = e.frame.toNat ∧ wordAt d 8 = e.age % 65536
        ∧ (e.handover = none → byteAt d 10 = 0 ∧ wordAt d 11 = 0 ∧ byteAt d 13 = 0)
        ∧ (∀ h, e.handover = some h → byteAt d 10 = (match h.kind with | .join => 1 | .leave => 2)
            ∧ wordAt d 11 = h.start.toNat ∧ byteAt d 13 = h.code % 256)
        ∧ (e.levelCopy = none → byteAt d 14 = 0 ∧ wordAt d 15 = 0 ∧ wordAt d 17 = 0 ∧ wordAt d 19 = 0
            ∧ wordAt d 21 = 0 ∧ wordAt d 23 = 0)
        ∧ (∀ r, e.levelCopy = some r → byteAt d 14 = 1 ∧ wordAt d 15 = r.serial.toNat
            ∧ wordAt d 17 = r.startLevel % 65536 ∧ wordAt d 19 = r.target % 65536
            ∧ wordAt d 21 = r.start.toNat ∧ wordAt d 23 = r.ramp % 65536)
        ∧ byteAt d 25 = e.conditions.lampLow.toNat + 2 * e.conditions.thermal.toNat
            + 4 * e.conditions.inputLost.toNat + 8 * e.conditions.lineStuck.toNat
        ∧ byteAt d 26 = e.zoneList.length % 256
        ∧ (∀ i, i < 8 → byteAt d (27 + 2 * i) = (e.zoneList.getD i (0, 0)).1 % 256
            ∧ byteAt d (28 + 2 * i) = (e.zoneList.getD i (0, 0)).2 % 256)
        ∧ wordAt d 43 = e.heard % 65536)
    ∧ (∀ (z : Zone) (d : List Byte), d = readZoneRecord z → d.length = 14
        ∧ byteAt d 0 = z.enabled.toNat ∧ byteAt d 1 = z.neighbour % 256
        ∧ byteAt d 2 = z.configuredShape % 256 ∧ byteAt d 3 = z.agreedShape % 256
        ∧ byteAt d 4 = z.shapeInUse % 256 ∧ byteAt d 5 = z.mismatch.toNat + 2 * z.oneSided.toNat
        ∧ byteAt d 6 = (match z.state with
            | .wait => 0 | .shared => 1 | .yielding => 2 | .filling => 3 | .solo => 4)
        ∧ byteAt d 7 = z.m % 256
        ∧ (z.ramp = none → ∀ i, 8 ≤ i → i < 14 → byteAt d i = 0)
        ∧ (∀ r, z.ramp = some r → byteAt d 8 = 1 ∧ byteAt d 9 = r.base % 256
            ∧ wordAt d 10 = r.start.toNat ∧ byteAt d 12 = r.step % 256 ∧ byteAt d 13 = r.up.toNat))
    ∧ (∀ s : State, (readFaults s).length = 8
        ∧ byteAt (readFaults s) 7 = s.faults.overflow % 256
        ∧ (s.faults.record = none → ∀ i, i < 7 → byteAt (readFaults s) i = 0)
        ∧ ∀ r, s.faults.record = some r → byteAt (readFaults s) 0 = 1
            ∧ byteAt (readFaults s) 1 = r.kind.code ∧ wordAt (readFaults s) 2 = r.frame.toNat
            ∧ byteAt (readFaults s) 4 = r.state.code ∧ wordAt (readFaults s) 5 = r.detail % 65536)
    ∧ (∀ (s : State) (d : List Byte), s.photo.inputs.length = 4 → d = readPhoto s → d.length = 21
        ∧ (∀ i, i < 4 → byteAt d (4 * i) = (s.photo.input i).enabled.toNat
            ∧ wordAt d (4 * i + 1) = (s.photo.input i).average % 65536
            ∧ byteAt d (4 * i + 3) = (s.photo.input i).streak % 256)
        ∧ wordAt d 16 = s.photo.capacity % 65536 ∧ wordAt d 18 = s.photo.black % 65536
        ∧ byteAt d 20 = s.photo.lampLow.toNat + 2 * s.photo.thermal.toNat)
    ∧ ∀ s : State, (readLevelItem s).length = 8 ∧ wordAt (readLevelItem s) 0 = s.level.sapp % 65536
        ∧ wordAt (readLevelItem s) 2 = s.level.scaleTarget % 65536
        ∧ wordAt (readLevelItem s) 4 = s.level.dapp % 65536
        ∧ byteAt (readLevelItem s) 6 = s.life.fade % 256
        ∧ byteAt (readLevelItem s) 7 = s.life.state.code

/-- R174, R175, R176: a STORE is tested by its address, the flag and the protected block; taken, it sets the flag and
begins the write. At the end of the transfer the EEPROM holds the 32 bytes, and no other byte has changed; 5 ms
after the write began the flag clears, and the EEPROM's cycle is over. (That the contents change at the transfer's end is
assumption 6, DESIGN CHOICE; that without a transfer STORE_TRANSFER_END does nothing, nor STORE_FLAG_CLEAR with the flag
clear, is assumption 2, DEDUCED.) -/
def Obligations.StoreWritesThirtyTwoBytes : Prop :=
  (∀ (s p : State) (o : Order), s.ordered .store o → o.args.length = 34 →
      p = { s with bus := { s.bus with rxQueue := s.bus.rxQueue.tail } } →
      exec .store s = .next (refreshTx (
        if wordAt o.args 0 % 32 ≠ 0 then answerOrder o .badArg [] p
        else if s.loader.storeInFlight = true then answerOrder o .busy [] p
        else if 65536 - 256 * s.settings.hdr.lockCount ≤ wordAt o.args 0 then
          answerOrder o .locked [] p
        else answerOrder o .done [] { p with loader := { s.loader with
          storeInFlight := true, storeBegan := s.now,
          transfer := some { address := wordAt o.args 0, bytes := o.args.drop 2 } } })))
    ∧ (∀ (t : Nat) (s : State), s.calm → s.eeprom.wf →
        (s.loader.transfer = none → exec (.storeTransferEnd t) s = .next (refreshTx (advanceTo t s)))
        ∧ ∀ w, s.loader.transfer = some w →
          ∃ m : Memory, exec (.storeTransferEnd t) s = .next (refreshTx { advanceTo t s with
              eeprom := m,
              loader := { s.loader with
                transfer := none,
                cycle := some {
                  address := w.address, bytes := s.eeprom.readBlock w.address w.bytes.length } } })
            ∧ m.wf ∧ (∀ i, (hi : i < w.bytes.length) → m.read (w.address + i) = w.bytes[i])
            ∧ ∀ a, a < w.address ∨ w.address + w.bytes.length ≤ a → m.read a = s.eeprom.read a)
    ∧ ∀ s : State, s.calm →
        (s.loader.storeInFlight = false → exec .storeFlagClear s = .next (refreshTx s))
        ∧ (s.loader.storeInFlight = true → s.loader.transfer = none →
            exec .storeFlagClear s = .next (refreshTx { advanceTo (s.loader.storeBegan + 5000000) s with
              loader := { s.loader with storeInFlight := false, cycle := none } }))
        ∧ ∀ w, s.loader.storeInFlight = true → s.loader.transfer = some w →
            exec .storeFlagClear s = .next (refreshTx { advanceTo (s.loader.storeBegan + 5000000) s with
              eeprom := s.eeprom.writeBlock w.address w.bytes,
              loader := { s.loader with storeInFlight := false, transfer := none, cycle := none } })

/-- R177, R182: a RESTART stays in hand with restart-pending set. Its reset is due at once when no answer of it
waits (a group order, station 0, a full FIFO), and otherwise when the answer has left, but never while a STORE's transfer
runs. (That the reset is a command of its own, due by `restartDue` once `restartReleased` is set, is assumption 20, DESIGN
CHOICE; that a RESTART without an answer is in hand too while a STORE's transfer holds its reset is assumption 35, DESIGN
CHOICE.) -/
def Obligations.RestartWaitsForItsAnswer : Prop :=
  ∀ (s p : State) (o : Order) (m : Message) (rest : List Message), s.ordered .restart o → o.args = [] →
    s.bus.rxQueue = m :: rest → p = { s with bus := { s.bus with rxQueue := rest } } →
    ∀ waits : Bool, (waits = true ↔ o.mask = 31 ∧ s.stn ≠ 0 ∧ s.bus.answers.length < 4) →
    ∃ u, exec .restart s = .next u
      ∧ u = refreshTx { answerOrder o .done [] p with console := {
          inHand := some m, restartPending := true, restartReleased := !waits } }
      ∧ (u.restartDue = true ↔ waits = false ∧ s.loader.transfer = none)
      ∧ u.orderAtHead = none

/-- R69, R70, R71, R96, R180: SLEEP puts a DARK station to sleep at once: the zones wait, scanning and the schedule stop and
sleep-pending is clear. From JOINING and LIT it leaves with reason SLEEP and sleep-pending set; in LEAVING it only
sets it; elsewhere it is NOT_NOW. WAKE takes a sleeping station to LISTEN with the peer table cleared, scanning and the
schedule resumed and C_own taken anew; elsewhere it is NOT_NOW. -/
def Obligations.SleepAndWakeAct : Prop :=
  ∀ (s p : State) (o : Order), p = { s with bus := { s.bus with rxQueue := s.bus.rxQueue.tail } } →
    (s.ordered .sleep o → o.args = [] →
      (s.life.state = .dark →
        exec .sleep s = .next (refreshTx (answerOrder o .done [] { p with
          life := { s.life with
            state := .sleep, fade := 0, fadeRamp := none, handover := none, sleepPending := false },
          zones := s.zones.map fun z =>
            if z.enabled then { z with state := .wait, ramp := none, m := 64 } else z,
          level := { s.level with
            scaleTarget := scaleTargetOf s.level.capacity s.settings.hdr.floor s.peers },
          schedule := { s.schedule with running := false },
          scan := none,
          bus := { p.bus with statusWanted := true } })))
      ∧ (s.life.state = .leaving →
        exec .sleep s = .next (refreshTx (answerOrder o .done []
          { p with life := { s.life with sleepPending := true } })))
      ∧ (∀ ramp : RampRecord, (s.life.state = .lit ∧ ramp.base = 64
            ∨ s.life.state = .joining ∧ ∃ old, s.life.fadeRamp = some old
                ∧ ramp.base = old.value (s.timer.number + BitVec.ofNat 16 s.settings.hdr.lead - 1)) →
          ramp.start = s.timer.number + BitVec.ofNat 16 s.settings.hdr.lead →
          ramp.step = 64 / 2 ^ min s.settings.hdr.leaveCode 6 → ramp.up = false →
          exec .sleep s = .next (refreshTx (answerOrder o .done [] { p with
            life := { s.life with
              state := .leaving, sleepPending := true, fade := ramp.value s.timer.number,
              fadeRamp := some ramp,
              handover := some {
                kind := .leave, start := ramp.start, code := s.settings.hdr.leaveCode,
                reason := .sleep } },
            level := { s.level with
              scaleTarget := scaleTargetOf s.level.capacity s.settings.hdr.floor s.peers },
            bus := { p.bus with handoverWanted := true, statusWanted := true } })))
      ∧ (s.life.state ≠ .dark → s.life.state.inSky = false →
          exec .sleep s = .next (refreshTx (answerOrder o .notNow [] p))))
    ∧ (s.ordered .wake o → o.args = [] →
        (s.life.state = .sleep →
          exec .wake s = .next (refreshTx (answerOrder o .done [] { p with
            life := { s.life with state := .listen, listenCount := 0 },
            peers := List.replicate 31 .cleared,
            schedule := { count := 0, running := true },
            scan := if s.photo.inputs.any (·.enabled)
              then some { began := s.now, round := 1, samples := [] } else none,
            level := { s.level with
              capacity := s.photo.capacity,
              scaleTarget := 32768 },
            bus := { p.bus with statusWanted := true } })))
        ∧ (s.life.state ≠ .sleep →
            exec .wake s = .next (refreshTx (answerOrder o .notNow [] p))))

/-! ### The send half of the bus -/

/-- R101, R102, R108, R115, R117, R118, R119: at the end of the gap in force the transmitter enters BACKOFF with a back-off left,
else LEAD; at the back-off's end LEAD; two bit times into LEAD it sends the first that is sendable of the handover
notice, the oldest answer (which stays in the FIFO) and the STATUS, clearing the wanted flag, or returns to IDLE. The own
start bit puts a gap of 48 in force. A notice carries its reason's code. Each of these times runs in its own state alone.
(That outside that state its command does nothing is assumption 2, DEDUCED; that the own lead ends what R121 has ignored,
`deaf`, is assumption 33, DESIGN CHOICE.) -/
def Obligations.TransmitterGainsTheLine : Prop :=
  [Reason.start, .rejoin, .lampLow, .thermal, .input, .hold, .sleep].map Reason.code
      = [0, 1, 2, 3, 4, 5, 6] ∧
  ∀ s : State, s.calm →
    (s.noticeSendable = true ↔ s.stn ≠ 0 ∧ s.bus.handoverWanted = true
        ∧ (s.life.state = .joining ∨ s.life.state = .leaving) ∧ s.life.handover ≠ none)
    ∧ (s.answerSendable = true ↔ s.stn ≠ 0 ∧ s.bus.answers ≠ []
        ∧ s.life.state ≠ .start ∧ s.life.state ≠ .measure)
    ∧ (s.statusSendable = true ↔ s.stn ≠ 0 ∧ s.bus.statusWanted = true
        ∧ s.life.state ≠ .start ∧ s.life.state ≠ .measure ∧ s.life.state ≠ .sleep)
    ∧ (s.bus.txState ≠ .gap → exec .gapElapsed s = .next (refreshTx s))
    ∧ (s.bus.txState ≠ .backoff → exec .backoffElapsed s = .next (refreshTx s))
    ∧ (s.bus.txState ≠ .lead → exec .leadStart s = .next (refreshTx s))
    ∧ (∀ t, s.bus.txState = .gap → t = s.bus.lastStart + s.bus.gap * s.bitTime →
        exec .gapElapsed s = .next (refreshTx { advanceTo t s with bus := { s.bus with
          txState := if 0 < s.bus.backoff then .backoff else .lead, txSince := max t s.now } }))
    ∧ (∀ t, s.bus.txState = .backoff → t = s.bus.txSince + s.bus.backoff * s.bitTime →
        exec .backoffElapsed s = .next (refreshTx { advanceTo t s with bus := { s.bus with
          txState := .lead, txSince := max t s.now, backoff := 0 } }))
    ∧ ∀ t, s.bus.txState = .lead → t = s.bus.txSince + 2 * s.bitTime →
      (∀ h, s.noticeSendable = true → s.life.handover = some h →
        exec .leadStart s = .next { advanceTo t s with bus := { s.bus with
          txState := .sending, txSince := max t s.now, item := .notice, handoverWanted := false,
          lastStart := max t s.now, gap := 48, markSince := false, deaf := false,
          message := messageBytes (if h.kind = .join then .join else .leave) s.stn
            (bytes2 s.timer.number.toNat ++ bytes2 h.start.toNat ++ byte1 h.code
              ++ byte1 h.reason.code ++ bytes2 s.level.capacity) } })
      ∧ (∀ a rest, s.noticeSendable = false → s.answerSendable = true → s.bus.answers = a :: rest →
        exec .leadStart s = .next { advanceTo t s with bus := { s.bus with
          txState := .sending, txSince := max t s.now, item := .answer, lastStart := max t s.now,
          gap := 48, markSince := false, deaf := false,
          message := messageBytes .answer s.stn
            (bytes2 a.serial.toNat ++ byte1 a.code ++ byte1 a.result ++ a.bytes) } })
      ∧ (s.noticeSendable = false → s.answerSendable = false → s.statusSendable = true →
        exec .leadStart s = .next { advanceTo t s with bus := { s.bus with
          txState := .sending, txSince := max t s.now, item := .status, statusWanted := false,
          lastStart := max t s.now, gap := 48, markSince := false, deaf := false,
          message := messageBytes .status s.stn (statusPayload s) } })
      ∧ (s.noticeSendable = false → s.answerSendable = false → s.statusSendable = false →
        exec .leadStart s = .next { advanceTo t s with bus := { s.bus with
          txState := .idle, txSince := max t s.now } })

/-- R117, R121, R122, R124: a collision counts, stops the driver and puts a gap of 48 in force from the start bit of the
character on the line. Up to the fifteenth the generator takes one step, the back-off is 40 times the top
min(attempt, 5) bits of it, and the item goes back; the sixteenth abandons: BUS_ABANDON with the message's kind, ABANDON
counted, the counts at 0, and an answer leaves the FIFO. After a difference in a later character than the lead what is read
back is not assembled (`deaf`, stated by `CharacterReachesTheAssembler`). (Which character is on the line is assumption 24,
DEDUCED; that an answer which leaves the FIFO empty releases a pending RESTART is assumption 20, DESIGN CHOICE; that a
collision when the station does not send is none is assumption 2, DEDUCED.) -/
def Obligations.CollisionBacksOffOrAbandons : Prop :=
  ∀ (t t' start index : Nat) (s : State), s.calm → t' = max t s.now →
    (s.bus.txState ≠ .sending → exec (.collision t) s = .next (refreshTx (advanceTo t s)))
    ∧ (s.bus.txState = .sending →
      index = min (s.bus.message.length - 1) ((t' - s.bus.txSince) / (11 * s.bitTime)) →
      start = s.bus.txSince + 11 * s.bitTime * index →
      (∀ r : BitVec 16, s.bus.attempts < 15 →
        r.getLsbD 0 = (s.bus.lfsr.getLsbD 15 ^^ s.bus.lfsr.getLsbD 13 ^^ s.bus.lfsr.getLsbD 12
          ^^ s.bus.lfsr.getLsbD 10) →
        (∀ i, i < 15 → r.getLsbD (i + 1) = s.bus.lfsr.getLsbD i) →
        exec (.collision t) s = .next (refreshTx { advanceTo t s with
          faults := { s.faults with counters := { s.faults.counters with
            collision := min 65535 (s.faults.counters.collision + 1) } },
          bus := { s.bus with
            attempts := s.bus.attempts + 1, lfsr := r,
            backoff := 40 * (r.toNat / 2 ^ (16 - min (s.bus.attempts + 1) 5)),
            statusWanted := s.bus.statusWanted || s.bus.item == .status,
            handoverWanted := s.bus.handoverWanted
              || (s.bus.item == .notice && s.life.handover.isSome),
            txState := .gap, txSince := t', item := .none, message := [], lastStart := start,
            gap := 48, deaf := decide (0 < index) } }))
      ∧ (15 ≤ s.bus.attempts →
        exec (.collision t) s = .next (refreshTx { advanceTo t s with
          faults := { s.faults.report {
              kind := .busAbandon, frame := s.timer.number, state := s.life.state,
              detail := byteAt s.bus.message 0 / 32 } with
            counters := { s.faults.counters with
              collision := min 65535 (s.faults.counters.collision + 1),
              abandon := min 65535 (s.faults.counters.abandon + 1) } },
          console := { s.console with
            restartReleased := s.console.restartReleased
              || (s.bus.item == .answer && s.console.restartPending
                && s.bus.answers.tail.isEmpty) },
          bus := { s.bus with
            attempts := 0, backoff := 0,
            answers := if s.bus.item = .answer then s.bus.answers.tail else s.bus.answers,
            txState := .gap, txSince := t', item := .none, message := [], lastStart := start,
            gap := 48, deaf := decide (0 < index) } })))

/-- R116, R117, R123, R182: when the stop bit of the check character has left, the message is sent: the attempt count and
the back-off return to 0, a sent answer leaves the FIFO, and a gap of 48 is in force from
the check character's start bit; the transmitter is in GAP when another item is sendable, else in IDLE. The own message
does not enter the receive queue. (That an answer which leaves the FIFO empty releases a pending RESTART is assumption 20,
DESIGN CHOICE; that outside SENDING there is nothing to end is assumption 2, DEDUCED.) -/
def Obligations.MessageSentFreesTheLine : Prop :=
  ∀ (s : State) (t : Nat), s.calm →
    (s.bus.txState ≠ .sending → exec .messageSent s = .next (refreshTx s))
    ∧ (s.bus.txState = .sending → t = s.bus.txSince + 11 * s.bus.message.length * s.bitTime →
      ∃ u v, exec .messageSent s = .next u ∧ u = refreshTx v
        ∧ v = { advanceTo t s with
          console := { s.console with
            restartReleased := s.console.restartReleased
              || (s.bus.item == .answer && s.console.restartPending
                && s.bus.answers.tail.isEmpty) },
          bus := { s.bus with
            txState := .idle, txSince := max t s.now, item := .none, message := [], attempts := 0,
            backoff := 0,
            lastStart := s.bus.txSince + 11 * (s.bus.message.length - 1) * s.bitTime, gap := 48,
            answers := if s.bus.item = .answer then s.bus.answers.tail else s.bus.answers } }
        ∧ u.bus.txState = (if v.anySendable then .gap else .idle)
        ∧ u.bus.rxQueue = s.bus.rxQueue)

/-! ### The pixel path and the ramps -/

/-- R9, R15, R16, R17, R18, R19, R20, R21: the interpolation of four corner values; the zones a pixel is in, with its t in
each; the shaped weight, the zone weight and the combined weight over those zones in ascending index; and the three gain
stages, with the bounds that the rules state: the interpolated value lies between the least and the greatest corner and is
the node's own at the node; s_sm and s lie in 0..4095, shape 0 gives t and shape 16 gives s_sm; W lies in 0..4096, and g0,
g1 and g2 in 0..32768. -/
def Obligations.InterpolationWeightAndGainStayInRange : Prop :=
  (∀ (k : Cell) (lo hi : Nat), k.fx < 2 ^ k.cellExp → k.fy < 2 ^ k.cellExp →
      k.sourceU = (k.n00.u * (2 ^ k.cellExp - k.fx) * (2 ^ k.cellExp - k.fy)
          + k.n10.u * k.fx * (2 ^ k.cellExp - k.fy) + k.n01.u * (2 ^ k.cellExp - k.fx) * k.fy
          + k.n11.u * k.fx * k.fy) / 2 ^ (2 * k.cellExp)
      ∧ k.sourceV = (k.n00.v * (2 ^ k.cellExp - k.fx) * (2 ^ k.cellExp - k.fy)
          + k.n10.v * k.fx * (2 ^ k.cellExp - k.fy) + k.n01.v * (2 ^ k.cellExp - k.fx) * k.fy
          + k.n11.v * k.fx * k.fy) / 2 ^ (2 * k.cellExp)
      ∧ ((∀ n ∈ [k.n00, k.n10, k.n01, k.n11], lo ≤ n.u ∧ n.u ≤ hi) → lo ≤ k.sourceU ∧ k.sourceU ≤ hi)
      ∧ ((∀ n ∈ [k.n00, k.n10, k.n01, k.n11], lo ≤ n.v ∧ n.v ≤ hi) → lo ≤ k.sourceV ∧ k.sourceV ≤ hi)
      ∧ (k.fx = 0 → k.fy = 0 → k.sourceU = k.n00.u ∧ k.sourceV = k.n00.v))
    ∧ (∀ t, t ≤ 4095 →
      smoothed t = (3 * t ^ 2 * 4096 - 2 * t ^ 3) / 4096 ^ 2 ∧ smoothed t ≤ 4095
      ∧ shaped 0 t = t ∧ shaped 16 t = smoothed t
      ∧ ∀ a, a ≤ 16 → shaped a t = ((16 - a) * t + a * smoothed t) / 16 ∧ shaped a t ≤ 4095)
    ∧ (∀ (n : Node) (z t : Nat) (names : Nat → Nat → Prop),
      (∀ w t, names w t ↔ w ≠ 65535 ∧ w / 8192 % 8 = z ∧ w % 8192 = t) →
      (n.entryFor z = some t ↔ names n.entryA t ∨ (∀ t', ¬names n.entryA t') ∧ names n.entryB t))
    ∧ (∀ (k : Cell) (z : Nat) (c : Node → Nat), (∀ n, c n = (n.entryFor z).getD 4096) →
      ((∀ n ∈ [k.n00, k.n10, k.n01, k.n11], n.entryFor z = none) → k.tFor z = none)
      ∧ ((∃ n ∈ [k.n00, k.n10, k.n01, k.n11], n.entryFor z ≠ none) → k.tFor z = some
          ((c k.n00 * (2 ^ k.cellExp - k.fx) * (2 ^ k.cellExp - k.fy)
            + c k.n10 * k.fx * (2 ^ k.cellExp - k.fy) + c k.n01 * (2 ^ k.cellExp - k.fx) * k.fy
            + c k.n11 * k.fx * k.fy) / 2 ^ (2 * k.cellExp)))
      ∧ ∀ (s : State) (t : Nat), zoneT s k z = some t ↔
          (s.zone z).enabled = true ∧ (s.zone z).state ≠ .wait ∧ k.tFor z = some t ∧ t < 4096)
    ∧ (∀ (s : State) (k : Cell) (W : Nat → Nat), W 0 = 4096 →
      (∀ z, z < 8 → W (z + 1) = match zoneT s k z with
        | some t =>
          let shapedT := shaped (s.zone z).shapeInUse t
          W z * (shapedT + (s.zone z).m * (4096 - shapedT) / 64) / 4096
        | none => W z) →
      weight s k = W 8)
    ∧ ∀ (s : State) (x y : Nat), s.level.sapp ≤ 32768 → s.level.dapp ≤ 1024 → s.life.fade ≤ 64 →
      (∀ z, (s.zone z).m ≤ 64 ∧ (s.zone z).shapeInUse ≤ 16) →
      ∃ w g0, w = weight s (cellAt s x y) ∧ w ≤ 4096
        ∧ g0 = s.level.sapp * s.level.dapp / 1024 ∧ g0 ≤ 32768
        ∧ gain1 s = g0 * s.life.fade / 64 ∧ gain1 s ≤ 32768
        ∧ gain2 s w = gain1 s * w / 4096 ∧ gain2 s w ≤ 32768
        ∧ ∀ lin, lin ≤ 65535 → linOut lin (gain2 s w) = lin * gain2 s w / 32768
            ∧ linOut lin (gain2 s w) ≤ 65535

/-- R35: the value of a ramp record. Its base until f has reached the start frame, then a step for each mark from the
start frame on, the start frame included, clamped to 0..64. And what the handover rests on (derived): an up ramp and a
down ramp of one start and step whose bases sum to 64 have values that sum to 64 at every frame. -/
def Obligations.RampValueFollowsRecord : Prop :=
  ∀ (r : RampRecord) (f : FrameNo) (k : Nat), k = (f - r.start).toNat + 1 →
    (32767 < (f - r.start).toNat → r.value f = r.base)
    ∧ ((f - r.start).toNat ≤ 32767 → r.up = true → r.value f = min 64 (r.base + r.step * k))
    ∧ ((f - r.start).toNat ≤ 32767 → r.up = false → r.value f = min 64 (r.base - r.step * k))
    ∧ ∀ q : RampRecord, q.start = r.start → q.step = r.step → r.up = true → q.up = false →
        r.base + q.base = 64 → r.value f + q.value f = 64

/-- R4, R5, R6, R7, R8, R10, R11, R12, R14, R22, R23, R24, R26, R27, R48: the four outcomes of a pixel in their order, every
code in 0..1023, code 0 while F is 0 outside SERVICE and on a void cell, the grid in SERVICE, the codes of the steps
elsewhere; its cell; the sample, 0 off the input raster, the pattern's on it, or the blend of the SHOWN buffer's four pixels
(each one written, R11), the last column and row in place of those beyond; the lift ceiling and the sum of the blacks; and
the place on the link at which each position leaves: every logical position of the raster once, mirrored by the straps. -/
def Obligations.EveryPixelCodeIsInRange : Prop :=
  (∀ (s : State) (x y : Nat) (k : Cell), k = cellAt s x y →
      k.cellExp = s.settings.hdr.cellExp ∧ k.fx = x % 2 ^ k.cellExp ∧ k.fy = y % 2 ^ k.cellExp
      ∧ (∀ i j, i = x / 2 ^ k.cellExp → j = y / 2 ^ k.cellExp →
          k.n00 = s.settings.node i j ∧ k.n10 = s.settings.node (i + 1) j
          ∧ k.n01 = s.settings.node i (j + 1) ∧ k.n11 = s.settings.node (i + 1) (j + 1))
      ∧ (k.anyVoid = true ↔ k.n00.u = 65535 ∨ k.n10.u = 65535 ∨ k.n01.u = 65535 ∨ k.n11.u = 65535))
    ∧ (∀ (s : State) (u v : Nat) (c : Component),
      (s.settings.hdr.inW ≤ u / 16 ∨ s.settings.hdr.inH ≤ v / 16 → linIn s u v c = 0)
      ∧ (u / 16 < s.settings.hdr.inW → v / 16 < s.settings.hdr.inH →
        (s.patternSource = .flat → linIn s u v c = s.flatLevel)
        ∧ (s.patternSource = .grid →
            linIn s u v c = if u / 16 % 64 < 2 ∨ v / 16 % 64 < 2 then 65535 else 0)
        ∧ (s.patternSource = .zonemap → linIn s u v c = 65535)
        ∧ (s.patternSource = .input → (∀ b ∈ s.buffers, b.state ≠ .shown) → linIn s u v c = 0)
        ∧ ∀ (b : Nat) (right below : Nat) (px : Nat → Nat → Pixel) (p : Nat → Nat → Nat),
          s.patternSource = .input → b < s.buffers.length → (s.buffer b).state = .shown →
          (∀ i, i < b → (s.buffer i).state ≠ .shown) →
          right = (if u / 16 + 1 = s.settings.hdr.inW then u / 16 else u / 16 + 1) →
          below = (if v / 16 + 1 = s.settings.hdr.inH then v / 16 else v / 16 + 1) →
          (∀ col row, col = u / 16 ∨ col = right → row = v / 16 ∨ row = below →
            (rowOf (s.buffer b).rows row)[col]? = some (px col row)
              ∧ p col row = s.settings.decode.getD (match c with
                | .red => (px col row).red.toNat | .green => (px col row).green.toNat
                | .blue => (px col row).blue.toNat) 0) →
          linIn s u v c = (p (u / 16) (v / 16) * (16 - u % 16) * (16 - v % 16)
            + p right (v / 16) * (u % 16) * (16 - v % 16)
            + p (u / 16) below * (16 - u % 16) * (v % 16) + p right below * (u % 16) * (v % 16)) / 256))
    ∧ (∀ (s : State) (k : Cell) (black : Nat → Nat) (member : Nat → Bool),
      (∀ z, black z = (s.peer (s.zone z).neighbour).black
        ∧ (member z = true ↔ (s.zone z).enabled = true ∧ (s.peer (s.zone z).neighbour).state = .live
            ∧ (s.peer (s.zone z).neighbour).reported ≠ some .service)) →
      (∀ z, z < 8 → member z = true → black z ≤ liftCeiling s)
      ∧ (liftCeiling s = 0 ∨ ∃ z, z < 8 ∧ member z = true ∧ black z = liftCeiling s)
      ∧ blackSum s k
          = (((List.range 8).filter fun z => member z && (zoneT s k z).isSome).map black).sum)
    ∧ (∀ (s : State) (x y : Nat),
      ((pixelCode s x y).red ≤ 1023 ∧ (pixelCode s x y).green ≤ 1023 ∧ (pixelCode s x y).blue ≤ 1023)
      ∧ (s.life.state = .service → ∀ v,
          v = (if x % 64 < 2 ∨ y % 64 < 2 ∨ x + 1 = s.settings.hdr.outW ∨ y + 1 = s.settings.hdr.outH
            then 1023 else 0) → pixelCode s x y = { red := v, green := v, blue := v })
      ∧ (s.life.state ≠ .service → s.life.fade = 0 →
          pixelCode s x y = { red := 0, green := 0, blue := 0 })
      ∧ (s.life.state ≠ .service → (cellAt s x y).anyVoid = true →
          pixelCode s x y = { red := 0, green := 0, blue := 0 })
      ∧ (s.life.state ≠ .service → s.life.fade ≠ 0 → (cellAt s x y).anyVoid = false →
          ∀ k, k = cellAt s x y → ∀ code : Component → Nat,
          (∀ c, ∃ lin out e d, lin = linIn s k.sourceU k.sourceV c
            ∧ out = lin * gain2 s (weight s k) / 32768
            ∧ e = s.settings.encode.getD (min 65535 (out + (liftCeiling s - blackSum s k)
                * s.life.fade / 64) / 16) 0 % 4096
            ∧ d = (if (x + s.encoder.phaseX) % 2 = 0
                then (if (y + s.encoder.phaseY) % 2 = 0 then 0 else 3)
                else if (y + s.encoder.phaseY) % 2 = 0 then 2 else 1)
            ∧ code c = min 1023 ((e + d) / 4)) →
          pixelCode s x y = { red := code .red, green := code .green, blue := code .blue }))
    ∧ ∀ (s : State) (x y : Nat), x < s.settings.hdr.outW → y < s.settings.hdr.outH →
      ∃ p, p < rasterSize s ∧ logicalPosition s p = (x, y)
        ∧ p = (if s.straps.flipy then s.settings.hdr.outH - 1 - y else y) * s.settings.hdr.outW
            + (if s.straps.mirx then s.settings.hdr.outW - 1 - x else x)
        ∧ ∀ q, q < rasterSize s → logicalPosition s q = (x, y) → q = p

/-! ### Invariants of every step -/

/-- The ranges the tables give: each of these is kept by every step. The EEPROM stays in canonical form (the model's
own); the counters, the overflow count, the receive queue and the answer FIFO keep their bounds (R114, R116,
R184, R186); the back-off generator is never 0 (R122); the levels and the scale keep their ranges (R73, R76, R80). -/
def Obligations.EveryStepKeepsBounds : Prop :=
  ∀ s u : State, step s = .next u →
    (EepromCanonical s → EepromCanonical u) ∧ (WithinBounds s → WithinBounds u)
      ∧ (GeneratorRuns s → GeneratorRuns u) ∧ (LevelsInRange s → LevelsInRange u)

/-- R50, R55, R58, R60, R154, R156, R157: every step keeps the agreement of F, the fade ramp and the own handover record with
the station state, and keeps the cause set the mirror of the Photometer's conditions and the hold-dark flag; and it keeps
the scan in progress in step with the clock, with the samples and the round of its time, in a state that scans. (When within
its time a sample is taken, and that the round stays 16 after the last, are assumption 13, DESIGN CHOICE.) -/
def Obligations.EveryStepKeepsFadeAndCauses : Prop :=
  ∀ s u : State, step s = .next u →
    (FadeAgrees s → FadeAgrees u) ∧ (CausesMirror s → CausesMirror u)
      ∧ (StartsInOrder s → ScanInStep s → ScanInStep u)

/-- R28, R30, R31, R32, R36: every step keeps the zone table in agreement: WAIT exactly for the zones that are disabled
or out of the sky, the fill 0 in SHARED and 64 in SOLO and WAIT, a ramp record exactly in YIELDING and FILLING, in the
direction of the state. -/
def Obligations.EveryStepKeepsZones : Prop :=
  ∀ s u : State, step s = .next u → ZonesAgree s → ZonesAgree u

/-- R142, R146: every step keeps at most one buffer FILLING, one SHOWN and two READY, and a FILLING one exactly while a
frame is in progress, which is that frame's. -/
def Obligations.EveryStepKeepsBuffers : Prop :=
  ∀ s u : State, step s = .next u → BuffersAgree s → BuffersAgree u

/-- R87, R97: every step keeps the own number's entry cleared, whatever is heard on the bus. -/
def Obligations.EveryStepKeepsOwnEntryCleared : Prop :=
  ∀ s u : State, step s = .next u → OwnEntryCleared s → OwnEntryCleared u

/-- The invariants that the steps keep hold right after reset. -/
def Obligations.InvariantsHoldAtReset : Prop :=
  EepromCanonical State.reset ∧ WithinBounds State.reset ∧ GeneratorRuns State.reset
    ∧ LevelsInRange State.reset ∧ FadeAgrees State.reset ∧ CausesMirror State.reset
    ∧ ScanInStep State.reset
    ∧ ZonesAgree State.reset ∧ BuffersAgree State.reset ∧ OwnEntryCleared State.reset

/-- R183, R184, R186: a report to an empty record fills it, with the frame number and the station state as they stand; one to
a filled record raises the overflow count, up to 255, and leaves the record. So of the faults reported the first is kept: no command but a CLEAR, a power-on, a pin reset or a
loss of supply changes a filled capture record, and none of the others lowers the overflow count or a counter. -/
def Obligations.FirstFaultIsKept : Prop :=
  (∀ (f : FaultUnit) (r : FaultRecord),
      (f.record = none → f.report r = { f with record := some r })
      ∧ ∀ k, f.record = some k → f.report r = { f with overflow := min 255 (f.overflow + 1) })
    ∧ (∀ (kind : FaultKind) (detail : Nat) (s : State), s.report kind detail = { s with
        faults := s.faults.report {
          kind := kind, frame := s.timer.number, state := s.life.state, detail := detail } })
    ∧ ∀ (c : Instr) (s u : State), exec c s = .next u → c ≠ .clear →
    (∀ t, c ≠ .powerOn t ∧ c ≠ .pinReset t ∧ c ≠ .powerLost t) → WithinBounds s →
    (∀ r, s.faults.record = some r → u.faults.record = some r)
      ∧ s.faults.overflow ≤ u.faults.overflow
      ∧ ∀ i, s.faults.counters.values.getD i 0 ≤ u.faults.counters.values.getD i 0

/-- R44, R90, R100, R107: the STATUS that a station builds, read by another by the layout of R107, gives back every field as
its owners hold it. (That the capacity is C_own also in SERVICE after a failed image check, where R100's last sentence
names the Photometer's, is assumption 32, DESIGN CHOICE.) -/
def Obligations.StatusReadsBack : Prop :=
  ∀ s : State, s.life.state ≠ .start → s.life.state ≠ .measure → s.life.state ≠ .sleep →
    s.level.capacity ≤ 4095 → s.photo.black ≤ 4095 → (∀ h ∈ s.life.handover, h.code ≤ 6) →
    LevelsInRange s → s.zones.length = 8 →
    (∀ z ∈ s.zones, z.neighbour ≤ 255 ∧ z.configuredShape ≤ 255) →
    readStatus (statusPayload s) = some {
      frame := s.timer.number, state := s.life.state, capacity := s.level.capacity,
      black := s.photo.black,
      conditions := {
        lampLow := s.life.causes.lampLow, thermal := s.life.causes.thermal,
        inputLost := s.life.causes.input, lineStuck := s.timer.lineState == .stuck },
      handover := s.life.handover.map fun h => { kind := h.kind, start := h.start, code := h.code },
      levelRecord := s.level.record,
      zoneList := (s.zones.filter (·.enabled)).map fun z => (z.neighbour, z.configuredShape) }
end

