-- ==== Sys2Proof/Laws/State.lean ====
section
/-! SUPPORT. One lemma for each field under each update of the state, so that no later proof unfolds a
record update. -/

namespace Sys2Proof.Machine

variable (s : State)

/-! ### setNow -/

@[simp] theorem State.setNow_pending (v : Nat) : (s.setNow v).pending = s.pending := rfl
@[simp] theorem State.setNow_now (v : Nat) : (s.setNow v).now = v := rfl
@[simp] theorem State.setNow_resetPhase (v : Nat) : (s.setNow v).resetPhase = s.resetPhase := rfl
@[simp] theorem State.setNow_due (v : Nat) : (s.setNow v).due = s.due := rfl
@[simp] theorem State.setNow_draws (v : Nat) : (s.setNow v).draws = s.draws := rfl
@[simp] theorem State.setNow_straps (v : Nat) : (s.setNow v).straps = s.straps := rfl
@[simp] theorem State.setNow_eeprom (v : Nat) : (s.setNow v).eeprom = s.eeprom := rfl
@[simp] theorem State.setNow_loader (v : Nat) : (s.setNow v).loader = s.loader := rfl
@[simp] theorem State.setNow_settings (v : Nat) : (s.setNow v).settings = s.settings := rfl
@[simp] theorem State.setNow_input (v : Nat) : (s.setNow v).input = s.input := rfl
@[simp] theorem State.setNow_buffers (v : Nat) : (s.setNow v).buffers = s.buffers := rfl
@[simp] theorem State.setNow_encoder (v : Nat) : (s.setNow v).encoder = s.encoder := rfl
@[simp] theorem State.setNow_patternSource (v : Nat) : (s.setNow v).patternSource = s.patternSource := rfl
@[simp] theorem State.setNow_flatLevel (v : Nat) : (s.setNow v).flatLevel = s.flatLevel := rfl
@[simp] theorem State.setNow_zones (v : Nat) : (s.setNow v).zones = s.zones := rfl
@[simp] theorem State.setNow_life (v : Nat) : (s.setNow v).life = s.life := rfl
@[simp] theorem State.setNow_level (v : Nat) : (s.setNow v).level = s.level := rfl
@[simp] theorem State.setNow_peers (v : Nat) : (s.setNow v).peers = s.peers := rfl
@[simp] theorem State.setNow_schedule (v : Nat) : (s.setNow v).schedule = s.schedule := rfl
@[simp] theorem State.setNow_bus (v : Nat) : (s.setNow v).bus = s.bus := rfl
@[simp] theorem State.setNow_timer (v : Nat) : (s.setNow v).timer = s.timer := rfl
@[simp] theorem State.setNow_photo (v : Nat) : (s.setNow v).photo = s.photo := rfl
@[simp] theorem State.setNow_scan (v : Nat) : (s.setNow v).scan = s.scan := rfl
@[simp] theorem State.setNow_converter (v : Nat) : (s.setNow v).converter = s.converter := rfl
@[simp] theorem State.setNow_console (v : Nat) : (s.setNow v).console = s.console := rfl
@[simp] theorem State.setNow_faults (v : Nat) : (s.setNow v).faults = s.faults := rfl

/-! ### setResetPhase -/

@[simp] theorem State.setResetPhase_pending (v : ResetPhase) : (s.setResetPhase v).pending = s.pending := rfl
@[simp] theorem State.setResetPhase_now (v : ResetPhase) : (s.setResetPhase v).now = s.now := rfl
@[simp] theorem State.setResetPhase_resetPhase (v : ResetPhase) : (s.setResetPhase v).resetPhase = v := rfl
@[simp] theorem State.setResetPhase_due (v : ResetPhase) : (s.setResetPhase v).due = s.due := rfl
@[simp] theorem State.setResetPhase_draws (v : ResetPhase) : (s.setResetPhase v).draws = s.draws := rfl
@[simp] theorem State.setResetPhase_straps (v : ResetPhase) : (s.setResetPhase v).straps = s.straps := rfl
@[simp] theorem State.setResetPhase_eeprom (v : ResetPhase) : (s.setResetPhase v).eeprom = s.eeprom := rfl
@[simp] theorem State.setResetPhase_loader (v : ResetPhase) : (s.setResetPhase v).loader = s.loader := rfl
@[simp] theorem State.setResetPhase_settings (v : ResetPhase) : (s.setResetPhase v).settings = s.settings := rfl
@[simp] theorem State.setResetPhase_input (v : ResetPhase) : (s.setResetPhase v).input = s.input := rfl
@[simp] theorem State.setResetPhase_buffers (v : ResetPhase) : (s.setResetPhase v).buffers = s.buffers := rfl
@[simp] theorem State.setResetPhase_encoder (v : ResetPhase) : (s.setResetPhase v).encoder = s.encoder := rfl
@[simp] theorem State.setResetPhase_patternSource (v : ResetPhase) : (s.setResetPhase v).patternSource = s.patternSource := rfl
@[simp] theorem State.setResetPhase_flatLevel (v : ResetPhase) : (s.setResetPhase v).flatLevel = s.flatLevel := rfl
@[simp] theorem State.setResetPhase_zones (v : ResetPhase) : (s.setResetPhase v).zones = s.zones := rfl
@[simp] theorem State.setResetPhase_life (v : ResetPhase) : (s.setResetPhase v).life = s.life := rfl
@[simp] theorem State.setResetPhase_level (v : ResetPhase) : (s.setResetPhase v).level = s.level := rfl
@[simp] theorem State.setResetPhase_peers (v : ResetPhase) : (s.setResetPhase v).peers = s.peers := rfl
@[simp] theorem State.setResetPhase_schedule (v : ResetPhase) : (s.setResetPhase v).schedule = s.schedule := rfl
@[simp] theorem State.setResetPhase_bus (v : ResetPhase) : (s.setResetPhase v).bus = s.bus := rfl
@[simp] theorem State.setResetPhase_timer (v : ResetPhase) : (s.setResetPhase v).timer = s.timer := rfl
@[simp] theorem State.setResetPhase_photo (v : ResetPhase) : (s.setResetPhase v).photo = s.photo := rfl
@[simp] theorem State.setResetPhase_scan (v : ResetPhase) : (s.setResetPhase v).scan = s.scan := rfl
@[simp] theorem State.setResetPhase_converter (v : ResetPhase) : (s.setResetPhase v).converter = s.converter := rfl
@[simp] theorem State.setResetPhase_console (v : ResetPhase) : (s.setResetPhase v).console = s.console := rfl
@[simp] theorem State.setResetPhase_faults (v : ResetPhase) : (s.setResetPhase v).faults = s.faults := rfl

/-! ### setDue -/

@[simp] theorem State.setDue_pending (v : List DueStep) : (s.setDue v).pending = s.pending := rfl
@[simp] theorem State.setDue_now (v : List DueStep) : (s.setDue v).now = s.now := rfl
@[simp] theorem State.setDue_resetPhase (v : List DueStep) : (s.setDue v).resetPhase = s.resetPhase := rfl
@[simp] theorem State.setDue_due (v : List DueStep) : (s.setDue v).due = v := rfl
@[simp] theorem State.setDue_draws (v : List DueStep) : (s.setDue v).draws = s.draws := rfl
@[simp] theorem State.setDue_straps (v : List DueStep) : (s.setDue v).straps = s.straps := rfl
@[simp] theorem State.setDue_eeprom (v : List DueStep) : (s.setDue v).eeprom = s.eeprom := rfl
@[simp] theorem State.setDue_loader (v : List DueStep) : (s.setDue v).loader = s.loader := rfl
@[simp] theorem State.setDue_settings (v : List DueStep) : (s.setDue v).settings = s.settings := rfl
@[simp] theorem State.setDue_input (v : List DueStep) : (s.setDue v).input = s.input := rfl
@[simp] theorem State.setDue_buffers (v : List DueStep) : (s.setDue v).buffers = s.buffers := rfl
@[simp] theorem State.setDue_encoder (v : List DueStep) : (s.setDue v).encoder = s.encoder := rfl
@[simp] theorem State.setDue_patternSource (v : List DueStep) : (s.setDue v).patternSource = s.patternSource := rfl
@[simp] theorem State.setDue_flatLevel (v : List DueStep) : (s.setDue v).flatLevel = s.flatLevel := rfl
@[simp] theorem State.setDue_zones (v : List DueStep) : (s.setDue v).zones = s.zones := rfl
@[simp] theorem State.setDue_life (v : List DueStep) : (s.setDue v).life = s.life := rfl
@[simp] theorem State.setDue_level (v : List DueStep) : (s.setDue v).level = s.level := rfl
@[simp] theorem State.setDue_peers (v : List DueStep) : (s.setDue v).peers = s.peers := rfl
@[simp] theorem State.setDue_schedule (v : List DueStep) : (s.setDue v).schedule = s.schedule := rfl
@[simp] theorem State.setDue_bus (v : List DueStep) : (s.setDue v).bus = s.bus := rfl
@[simp] theorem State.setDue_timer (v : List DueStep) : (s.setDue v).timer = s.timer := rfl
@[simp] theorem State.setDue_photo (v : List DueStep) : (s.setDue v).photo = s.photo := rfl
@[simp] theorem State.setDue_scan (v : List DueStep) : (s.setDue v).scan = s.scan := rfl
@[simp] theorem State.setDue_converter (v : List DueStep) : (s.setDue v).converter = s.converter := rfl
@[simp] theorem State.setDue_console (v : List DueStep) : (s.setDue v).console = s.console := rfl
@[simp] theorem State.setDue_faults (v : List DueStep) : (s.setDue v).faults = s.faults := rfl

/-! ### setDraws -/

@[simp] theorem State.setDraws_pending (v : Nat) : (s.setDraws v).pending = s.pending := rfl
@[simp] theorem State.setDraws_now (v : Nat) : (s.setDraws v).now = s.now := rfl
@[simp] theorem State.setDraws_resetPhase (v : Nat) : (s.setDraws v).resetPhase = s.resetPhase := rfl
@[simp] theorem State.setDraws_due (v : Nat) : (s.setDraws v).due = s.due := rfl
@[simp] theorem State.setDraws_draws (v : Nat) : (s.setDraws v).draws = v := rfl
@[simp] theorem State.setDraws_straps (v : Nat) : (s.setDraws v).straps = s.straps := rfl
@[simp] theorem State.setDraws_eeprom (v : Nat) : (s.setDraws v).eeprom = s.eeprom := rfl
@[simp] theorem State.setDraws_loader (v : Nat) : (s.setDraws v).loader = s.loader := rfl
@[simp] theorem State.setDraws_settings (v : Nat) : (s.setDraws v).settings = s.settings := rfl
@[simp] theorem State.setDraws_input (v : Nat) : (s.setDraws v).input = s.input := rfl
@[simp] theorem State.setDraws_buffers (v : Nat) : (s.setDraws v).buffers = s.buffers := rfl
@[simp] theorem State.setDraws_encoder (v : Nat) : (s.setDraws v).encoder = s.encoder := rfl
@[simp] theorem State.setDraws_patternSource (v : Nat) : (s.setDraws v).patternSource = s.patternSource := rfl
@[simp] theorem State.setDraws_flatLevel (v : Nat) : (s.setDraws v).flatLevel = s.flatLevel := rfl
@[simp] theorem State.setDraws_zones (v : Nat) : (s.setDraws v).zones = s.zones := rfl
@[simp] theorem State.setDraws_life (v : Nat) : (s.setDraws v).life = s.life := rfl
@[simp] theorem State.setDraws_level (v : Nat) : (s.setDraws v).level = s.level := rfl
@[simp] theorem State.setDraws_peers (v : Nat) : (s.setDraws v).peers = s.peers := rfl
@[simp] theorem State.setDraws_schedule (v : Nat) : (s.setDraws v).schedule = s.schedule := rfl
@[simp] theorem State.setDraws_bus (v : Nat) : (s.setDraws v).bus = s.bus := rfl
@[simp] theorem State.setDraws_timer (v : Nat) : (s.setDraws v).timer = s.timer := rfl
@[simp] theorem State.setDraws_photo (v : Nat) : (s.setDraws v).photo = s.photo := rfl
@[simp] theorem State.setDraws_scan (v : Nat) : (s.setDraws v).scan = s.scan := rfl
@[simp] theorem State.setDraws_converter (v : Nat) : (s.setDraws v).converter = s.converter := rfl
@[simp] theorem State.setDraws_console (v : Nat) : (s.setDraws v).console = s.console := rfl
@[simp] theorem State.setDraws_faults (v : Nat) : (s.setDraws v).faults = s.faults := rfl

/-! ### setStraps -/

@[simp] theorem State.setStraps_pending (v : Straps) : (s.setStraps v).pending = s.pending := rfl
@[simp] theorem State.setStraps_now (v : Straps) : (s.setStraps v).now = s.now := rfl
@[simp] theorem State.setStraps_resetPhase (v : Straps) : (s.setStraps v).resetPhase = s.resetPhase := rfl
@[simp] theorem State.setStraps_due (v : Straps) : (s.setStraps v).due = s.due := rfl
@[simp] theorem State.setStraps_draws (v : Straps) : (s.setStraps v).draws = s.draws := rfl
@[simp] theorem State.setStraps_straps (v : Straps) : (s.setStraps v).straps = v := rfl
@[simp] theorem State.setStraps_eeprom (v : Straps) : (s.setStraps v).eeprom = s.eeprom := rfl
@[simp] theorem State.setStraps_loader (v : Straps) : (s.setStraps v).loader = s.loader := rfl
@[simp] theorem State.setStraps_settings (v : Straps) : (s.setStraps v).settings = s.settings := rfl
@[simp] theorem State.setStraps_input (v : Straps) : (s.setStraps v).input = s.input := rfl
@[simp] theorem State.setStraps_buffers (v : Straps) : (s.setStraps v).buffers = s.buffers := rfl
@[simp] theorem State.setStraps_encoder (v : Straps) : (s.setStraps v).encoder = s.encoder := rfl
@[simp] theorem State.setStraps_patternSource (v : Straps) : (s.setStraps v).patternSource = s.patternSource := rfl
@[simp] theorem State.setStraps_flatLevel (v : Straps) : (s.setStraps v).flatLevel = s.flatLevel := rfl
@[simp] theorem State.setStraps_zones (v : Straps) : (s.setStraps v).zones = s.zones := rfl
@[simp] theorem State.setStraps_life (v : Straps) : (s.setStraps v).life = s.life := rfl
@[simp] theorem State.setStraps_level (v : Straps) : (s.setStraps v).level = s.level := rfl
@[simp] theorem State.setStraps_peers (v : Straps) : (s.setStraps v).peers = s.peers := rfl
@[simp] theorem State.setStraps_schedule (v : Straps) : (s.setStraps v).schedule = s.schedule := rfl
@[simp] theorem State.setStraps_bus (v : Straps) : (s.setStraps v).bus = s.bus := rfl
@[simp] theorem State.setStraps_timer (v : Straps) : (s.setStraps v).timer = s.timer := rfl
@[simp] theorem State.setStraps_photo (v : Straps) : (s.setStraps v).photo = s.photo := rfl
@[simp] theorem State.setStraps_scan (v : Straps) : (s.setStraps v).scan = s.scan := rfl
@[simp] theorem State.setStraps_converter (v : Straps) : (s.setStraps v).converter = s.converter := rfl
@[simp] theorem State.setStraps_console (v : Straps) : (s.setStraps v).console = s.console := rfl
@[simp] theorem State.setStraps_faults (v : Straps) : (s.setStraps v).faults = s.faults := rfl

/-! ### setEeprom -/

@[simp] theorem State.setEeprom_pending (v : Memory) : (s.setEeprom v).pending = s.pending := rfl
@[simp] theorem State.setEeprom_now (v : Memory) : (s.setEeprom v).now = s.now := rfl
@[simp] theorem State.setEeprom_resetPhase (v : Memory) : (s.setEeprom v).resetPhase = s.resetPhase := rfl
@[simp] theorem State.setEeprom_due (v : Memory) : (s.setEeprom v).due = s.due := rfl
@[simp] theorem State.setEeprom_draws (v : Memory) : (s.setEeprom v).draws = s.draws := rfl
@[simp] theorem State.setEeprom_straps (v : Memory) : (s.setEeprom v).straps = s.straps := rfl
@[simp] theorem State.setEeprom_eeprom (v : Memory) : (s.setEeprom v).eeprom = v := rfl
@[simp] theorem State.setEeprom_loader (v : Memory) : (s.setEeprom v).loader = s.loader := rfl
@[simp] theorem State.setEeprom_settings (v : Memory) : (s.setEeprom v).settings = s.settings := rfl
@[simp] theorem State.setEeprom_input (v : Memory) : (s.setEeprom v).input = s.input := rfl
@[simp] theorem State.setEeprom_buffers (v : Memory) : (s.setEeprom v).buffers = s.buffers := rfl
@[simp] theorem State.setEeprom_encoder (v : Memory) : (s.setEeprom v).encoder = s.encoder := rfl
@[simp] theorem State.setEeprom_patternSource (v : Memory) : (s.setEeprom v).patternSource = s.patternSource := rfl
@[simp] theorem State.setEeprom_flatLevel (v : Memory) : (s.setEeprom v).flatLevel = s.flatLevel := rfl
@[simp] theorem State.setEeprom_zones (v : Memory) : (s.setEeprom v).zones = s.zones := rfl
@[simp] theorem State.setEeprom_life (v : Memory) : (s.setEeprom v).life = s.life := rfl
@[simp] theorem State.setEeprom_level (v : Memory) : (s.setEeprom v).level = s.level := rfl
@[simp] theorem State.setEeprom_peers (v : Memory) : (s.setEeprom v).peers = s.peers := rfl
@[simp] theorem State.setEeprom_schedule (v : Memory) : (s.setEeprom v).schedule = s.schedule := rfl
@[simp] theorem State.setEeprom_bus (v : Memory) : (s.setEeprom v).bus = s.bus := rfl
@[simp] theorem State.setEeprom_timer (v : Memory) : (s.setEeprom v).timer = s.timer := rfl
@[simp] theorem State.setEeprom_photo (v : Memory) : (s.setEeprom v).photo = s.photo := rfl
@[simp] theorem State.setEeprom_scan (v : Memory) : (s.setEeprom v).scan = s.scan := rfl
@[simp] theorem State.setEeprom_converter (v : Memory) : (s.setEeprom v).converter = s.converter := rfl
@[simp] theorem State.setEeprom_console (v : Memory) : (s.setEeprom v).console = s.console := rfl
@[simp] theorem State.setEeprom_faults (v : Memory) : (s.setEeprom v).faults = s.faults := rfl

/-! ### setLoader -/

@[simp] theorem State.setLoader_pending (v : Loader) : (s.setLoader v).pending = s.pending := rfl
@[simp] theorem State.setLoader_now (v : Loader) : (s.setLoader v).now = s.now := rfl
@[simp] theorem State.setLoader_resetPhase (v : Loader) : (s.setLoader v).resetPhase = s.resetPhase := rfl
@[simp] theorem State.setLoader_due (v : Loader) : (s.setLoader v).due = s.due := rfl
@[simp] theorem State.setLoader_draws (v : Loader) : (s.setLoader v).draws = s.draws := rfl
@[simp] theorem State.setLoader_straps (v : Loader) : (s.setLoader v).straps = s.straps := rfl
@[simp] theorem State.setLoader_eeprom (v : Loader) : (s.setLoader v).eeprom = s.eeprom := rfl
@[simp] theorem State.setLoader_loader (v : Loader) : (s.setLoader v).loader = v := rfl
@[simp] theorem State.setLoader_settings (v : Loader) : (s.setLoader v).settings = s.settings := rfl
@[simp] theorem State.setLoader_input (v : Loader) : (s.setLoader v).input = s.input := rfl
@[simp] theorem State.setLoader_buffers (v : Loader) : (s.setLoader v).buffers = s.buffers := rfl
@[simp] theorem State.setLoader_encoder (v : Loader) : (s.setLoader v).encoder = s.encoder := rfl
@[simp] theorem State.setLoader_patternSource (v : Loader) : (s.setLoader v).patternSource = s.patternSource := rfl
@[simp] theorem State.setLoader_flatLevel (v : Loader) : (s.setLoader v).flatLevel = s.flatLevel := rfl
@[simp] theorem State.setLoader_zones (v : Loader) : (s.setLoader v).zones = s.zones := rfl
@[simp] theorem State.setLoader_life (v : Loader) : (s.setLoader v).life = s.life := rfl
@[simp] theorem State.setLoader_level (v : Loader) : (s.setLoader v).level = s.level := rfl
@[simp] theorem State.setLoader_peers (v : Loader) : (s.setLoader v).peers = s.peers := rfl
@[simp] theorem State.setLoader_schedule (v : Loader) : (s.setLoader v).schedule = s.schedule := rfl
@[simp] theorem State.setLoader_bus (v : Loader) : (s.setLoader v).bus = s.bus := rfl
@[simp] theorem State.setLoader_timer (v : Loader) : (s.setLoader v).timer = s.timer := rfl
@[simp] theorem State.setLoader_photo (v : Loader) : (s.setLoader v).photo = s.photo := rfl
@[simp] theorem State.setLoader_scan (v : Loader) : (s.setLoader v).scan = s.scan := rfl
@[simp] theorem State.setLoader_converter (v : Loader) : (s.setLoader v).converter = s.converter := rfl
@[simp] theorem State.setLoader_console (v : Loader) : (s.setLoader v).console = s.console := rfl
@[simp] theorem State.setLoader_faults (v : Loader) : (s.setLoader v).faults = s.faults := rfl

/-! ### setSettings -/

@[simp] theorem State.setSettings_pending (v : Settings) : (s.setSettings v).pending = s.pending := rfl
@[simp] theorem State.setSettings_now (v : Settings) : (s.setSettings v).now = s.now := rfl
@[simp] theorem State.setSettings_resetPhase (v : Settings) : (s.setSettings v).resetPhase = s.resetPhase := rfl
@[simp] theorem State.setSettings_due (v : Settings) : (s.setSettings v).due = s.due := rfl
@[simp] theorem State.setSettings_draws (v : Settings) : (s.setSettings v).draws = s.draws := rfl
@[simp] theorem State.setSettings_straps (v : Settings) : (s.setSettings v).straps = s.straps := rfl
@[simp] theorem State.setSettings_eeprom (v : Settings) : (s.setSettings v).eeprom = s.eeprom := rfl
@[simp] theorem State.setSettings_loader (v : Settings) : (s.setSettings v).loader = s.loader := rfl
@[simp] theorem State.setSettings_settings (v : Settings) : (s.setSettings v).settings = v := rfl
@[simp] theorem State.setSettings_input (v : Settings) : (s.setSettings v).input = s.input := rfl
@[simp] theorem State.setSettings_buffers (v : Settings) : (s.setSettings v).buffers = s.buffers := rfl
@[simp] theorem State.setSettings_encoder (v : Settings) : (s.setSettings v).encoder = s.encoder := rfl
@[simp] theorem State.setSettings_patternSource (v : Settings) : (s.setSettings v).patternSource = s.patternSource := rfl
@[simp] theorem State.setSettings_flatLevel (v : Settings) : (s.setSettings v).flatLevel = s.flatLevel := rfl
@[simp] theorem State.setSettings_zones (v : Settings) : (s.setSettings v).zones = s.zones := rfl
@[simp] theorem State.setSettings_life (v : Settings) : (s.setSettings v).life = s.life := rfl
@[simp] theorem State.setSettings_level (v : Settings) : (s.setSettings v).level = s.level := rfl
@[simp] theorem State.setSettings_peers (v : Settings) : (s.setSettings v).peers = s.peers := rfl
@[simp] theorem State.setSettings_schedule (v : Settings) : (s.setSettings v).schedule = s.schedule := rfl
@[simp] theorem State.setSettings_bus (v : Settings) : (s.setSettings v).bus = s.bus := rfl
@[simp] theorem State.setSettings_timer (v : Settings) : (s.setSettings v).timer = s.timer := rfl
@[simp] theorem State.setSettings_photo (v : Settings) : (s.setSettings v).photo = s.photo := rfl
@[simp] theorem State.setSettings_scan (v : Settings) : (s.setSettings v).scan = s.scan := rfl
@[simp] theorem State.setSettings_converter (v : Settings) : (s.setSettings v).converter = s.converter := rfl
@[simp] theorem State.setSettings_console (v : Settings) : (s.setSettings v).console = s.console := rfl
@[simp] theorem State.setSettings_faults (v : Settings) : (s.setSettings v).faults = s.faults := rfl

/-! ### setInput -/

@[simp] theorem State.setInput_pending (v : InputPort) : (s.setInput v).pending = s.pending := rfl
@[simp] theorem State.setInput_now (v : InputPort) : (s.setInput v).now = s.now := rfl
@[simp] theorem State.setInput_resetPhase (v : InputPort) : (s.setInput v).resetPhase = s.resetPhase := rfl
@[simp] theorem State.setInput_due (v : InputPort) : (s.setInput v).due = s.due := rfl
@[simp] theorem State.setInput_draws (v : InputPort) : (s.setInput v).draws = s.draws := rfl
@[simp] theorem State.setInput_straps (v : InputPort) : (s.setInput v).straps = s.straps := rfl
@[simp] theorem State.setInput_eeprom (v : InputPort) : (s.setInput v).eeprom = s.eeprom := rfl
@[simp] theorem State.setInput_loader (v : InputPort) : (s.setInput v).loader = s.loader := rfl
@[simp] theorem State.setInput_settings (v : InputPort) : (s.setInput v).settings = s.settings := rfl
@[simp] theorem State.setInput_input (v : InputPort) : (s.setInput v).input = v := rfl
@[simp] theorem State.setInput_buffers (v : InputPort) : (s.setInput v).buffers = s.buffers := rfl
@[simp] theorem State.setInput_encoder (v : InputPort) : (s.setInput v).encoder = s.encoder := rfl
@[simp] theorem State.setInput_patternSource (v : InputPort) : (s.setInput v).patternSource = s.patternSource := rfl
@[simp] theorem State.setInput_flatLevel (v : InputPort) : (s.setInput v).flatLevel = s.flatLevel := rfl
@[simp] theorem State.setInput_zones (v : InputPort) : (s.setInput v).zones = s.zones := rfl
@[simp] theorem State.setInput_life (v : InputPort) : (s.setInput v).life = s.life := rfl
@[simp] theorem State.setInput_level (v : InputPort) : (s.setInput v).level = s.level := rfl
@[simp] theorem State.setInput_peers (v : InputPort) : (s.setInput v).peers = s.peers := rfl
@[simp] theorem State.setInput_schedule (v : InputPort) : (s.setInput v).schedule = s.schedule := rfl
@[simp] theorem State.setInput_bus (v : InputPort) : (s.setInput v).bus = s.bus := rfl
@[simp] theorem State.setInput_timer (v : InputPort) : (s.setInput v).timer = s.timer := rfl
@[simp] theorem State.setInput_photo (v : InputPort) : (s.setInput v).photo = s.photo := rfl
@[simp] theorem State.setInput_scan (v : InputPort) : (s.setInput v).scan = s.scan := rfl
@[simp] theorem State.setInput_converter (v : InputPort) : (s.setInput v).converter = s.converter := rfl
@[simp] theorem State.setInput_console (v : InputPort) : (s.setInput v).console = s.console := rfl
@[simp] theorem State.setInput_faults (v : InputPort) : (s.setInput v).faults = s.faults := rfl

/-! ### setBuffers -/

@[simp] theorem State.setBuffers_pending (v : List FrameBuffer) : (s.setBuffers v).pending = s.pending := rfl
@[simp] theorem State.setBuffers_now (v : List FrameBuffer) : (s.setBuffers v).now = s.now := rfl
@[simp] theorem State.setBuffers_resetPhase (v : List FrameBuffer) : (s.setBuffers v).resetPhase = s.resetPhase := rfl
@[simp] theorem State.setBuffers_due (v : List FrameBuffer) : (s.setBuffers v).due = s.due := rfl
@[simp] theorem State.setBuffers_draws (v : List FrameBuffer) : (s.setBuffers v).draws = s.draws := rfl
@[simp] theorem State.setBuffers_straps (v : List FrameBuffer) : (s.setBuffers v).straps = s.straps := rfl
@[simp] theorem State.setBuffers_eeprom (v : List FrameBuffer) : (s.setBuffers v).eeprom = s.eeprom := rfl
@[simp] theorem State.setBuffers_loader (v : List FrameBuffer) : (s.setBuffers v).loader = s.loader := rfl
@[simp] theorem State.setBuffers_settings (v : List FrameBuffer) : (s.setBuffers v).settings = s.settings := rfl
@[simp] theorem State.setBuffers_input (v : List FrameBuffer) : (s.setBuffers v).input = s.input := rfl
@[simp] theorem State.setBuffers_buffers (v : List FrameBuffer) : (s.setBuffers v).buffers = v := rfl
@[simp] theorem State.setBuffers_encoder (v : List FrameBuffer) : (s.setBuffers v).encoder = s.encoder := rfl
@[simp] theorem State.setBuffers_patternSource (v : List FrameBuffer) : (s.setBuffers v).patternSource = s.patternSource := rfl
@[simp] theorem State.setBuffers_flatLevel (v : List FrameBuffer) : (s.setBuffers v).flatLevel = s.flatLevel := rfl
@[simp] theorem State.setBuffers_zones (v : List FrameBuffer) : (s.setBuffers v).zones = s.zones := rfl
@[simp] theorem State.setBuffers_life (v : List FrameBuffer) : (s.setBuffers v).life = s.life := rfl
@[simp] theorem State.setBuffers_level (v : List FrameBuffer) : (s.setBuffers v).level = s.level := rfl
@[simp] theorem State.setBuffers_peers (v : List FrameBuffer) : (s.setBuffers v).peers = s.peers := rfl
@[simp] theorem State.setBuffers_schedule (v : List FrameBuffer) : (s.setBuffers v).schedule = s.schedule := rfl
@[simp] theorem State.setBuffers_bus (v : List FrameBuffer) : (s.setBuffers v).bus = s.bus := rfl
@[simp] theorem State.setBuffers_timer (v : List FrameBuffer) : (s.setBuffers v).timer = s.timer := rfl
@[simp] theorem State.setBuffers_photo (v : List FrameBuffer) : (s.setBuffers v).photo = s.photo := rfl
@[simp] theorem State.setBuffers_scan (v : List FrameBuffer) : (s.setBuffers v).scan = s.scan := rfl
@[simp] theorem State.setBuffers_converter (v : List FrameBuffer) : (s.setBuffers v).converter = s.converter := rfl
@[simp] theorem State.setBuffers_console (v : List FrameBuffer) : (s.setBuffers v).console = s.console := rfl
@[simp] theorem State.setBuffers_faults (v : List FrameBuffer) : (s.setBuffers v).faults = s.faults := rfl

/-! ### setEncoder -/

@[simp] theorem State.setEncoder_pending (v : Encoder) : (s.setEncoder v).pending = s.pending := rfl
@[simp] theorem State.setEncoder_now (v : Encoder) : (s.setEncoder v).now = s.now := rfl
@[simp] theorem State.setEncoder_resetPhase (v : Encoder) : (s.setEncoder v).resetPhase = s.resetPhase := rfl
@[simp] theorem State.setEncoder_due (v : Encoder) : (s.setEncoder v).due = s.due := rfl
@[simp] theorem State.setEncoder_draws (v : Encoder) : (s.setEncoder v).draws = s.draws := rfl
@[simp] theorem State.setEncoder_straps (v : Encoder) : (s.setEncoder v).straps = s.straps := rfl
@[simp] theorem State.setEncoder_eeprom (v : Encoder) : (s.setEncoder v).eeprom = s.eeprom := rfl
@[simp] theorem State.setEncoder_loader (v : Encoder) : (s.setEncoder v).loader = s.loader := rfl
@[simp] theorem State.setEncoder_settings (v : Encoder) : (s.setEncoder v).settings = s.settings := rfl
@[simp] theorem State.setEncoder_input (v : Encoder) : (s.setEncoder v).input = s.input := rfl
@[simp] theorem State.setEncoder_buffers (v : Encoder) : (s.setEncoder v).buffers = s.buffers := rfl
@[simp] theorem State.setEncoder_encoder (v : Encoder) : (s.setEncoder v).encoder = v := rfl
@[simp] theorem State.setEncoder_patternSource (v : Encoder) : (s.setEncoder v).patternSource = s.patternSource := rfl
@[simp] theorem State.setEncoder_flatLevel (v : Encoder) : (s.setEncoder v).flatLevel = s.flatLevel := rfl
@[simp] theorem State.setEncoder_zones (v : Encoder) : (s.setEncoder v).zones = s.zones := rfl
@[simp] theorem State.setEncoder_life (v : Encoder) : (s.setEncoder v).life = s.life := rfl
@[simp] theorem State.setEncoder_level (v : Encoder) : (s.setEncoder v).level = s.level := rfl
@[simp] theorem State.setEncoder_peers (v : Encoder) : (s.setEncoder v).peers = s.peers := rfl
@[simp] theorem State.setEncoder_schedule (v : Encoder) : (s.setEncoder v).schedule = s.schedule := rfl
@[simp] theorem State.setEncoder_bus (v : Encoder) : (s.setEncoder v).bus = s.bus := rfl
@[simp] theorem State.setEncoder_timer (v : Encoder) : (s.setEncoder v).timer = s.timer := rfl
@[simp] theorem State.setEncoder_photo (v : Encoder) : (s.setEncoder v).photo = s.photo := rfl
@[simp] theorem State.setEncoder_scan (v : Encoder) : (s.setEncoder v).scan = s.scan := rfl
@[simp] theorem State.setEncoder_converter (v : Encoder) : (s.setEncoder v).converter = s.converter := rfl
@[simp] theorem State.setEncoder_console (v : Encoder) : (s.setEncoder v).console = s.console := rfl
@[simp] theorem State.setEncoder_faults (v : Encoder) : (s.setEncoder v).faults = s.faults := rfl

/-! ### setPattern -/

@[simp] theorem State.setPattern_pending (v : PatternSource) : (s.setPattern v).pending = s.pending := rfl
@[simp] theorem State.setPattern_now (v : PatternSource) : (s.setPattern v).now = s.now := rfl
@[simp] theorem State.setPattern_resetPhase (v : PatternSource) : (s.setPattern v).resetPhase = s.resetPhase := rfl
@[simp] theorem State.setPattern_due (v : PatternSource) : (s.setPattern v).due = s.due := rfl
@[simp] theorem State.setPattern_draws (v : PatternSource) : (s.setPattern v).draws = s.draws := rfl
@[simp] theorem State.setPattern_straps (v : PatternSource) : (s.setPattern v).straps = s.straps := rfl
@[simp] theorem State.setPattern_eeprom (v : PatternSource) : (s.setPattern v).eeprom = s.eeprom := rfl
@[simp] theorem State.setPattern_loader (v : PatternSource) : (s.setPattern v).loader = s.loader := rfl
@[simp] theorem State.setPattern_settings (v : PatternSource) : (s.setPattern v).settings = s.settings := rfl
@[simp] theorem State.setPattern_input (v : PatternSource) : (s.setPattern v).input = s.input := rfl
@[simp] theorem State.setPattern_buffers (v : PatternSource) : (s.setPattern v).buffers = s.buffers := rfl
@[simp] theorem State.setPattern_encoder (v : PatternSource) : (s.setPattern v).encoder = s.encoder := rfl
@[simp] theorem State.setPattern_patternSource (v : PatternSource) : (s.setPattern v).patternSource = v := rfl
@[simp] theorem State.setPattern_flatLevel (v : PatternSource) : (s.setPattern v).flatLevel = s.flatLevel := rfl
@[simp] theorem State.setPattern_zones (v : PatternSource) : (s.setPattern v).zones = s.zones := rfl
@[simp] theorem State.setPattern_life (v : PatternSource) : (s.setPattern v).life = s.life := rfl
@[simp] theorem State.setPattern_level (v : PatternSource) : (s.setPattern v).level = s.level := rfl
@[simp] theorem State.setPattern_peers (v : PatternSource) : (s.setPattern v).peers = s.peers := rfl
@[simp] theorem State.setPattern_schedule (v : PatternSource) : (s.setPattern v).schedule = s.schedule := rfl
@[simp] theorem State.setPattern_bus (v : PatternSource) : (s.setPattern v).bus = s.bus := rfl
@[simp] theorem State.setPattern_timer (v : PatternSource) : (s.setPattern v).timer = s.timer := rfl
@[simp] theorem State.setPattern_photo (v : PatternSource) : (s.setPattern v).photo = s.photo := rfl
@[simp] theorem State.setPattern_scan (v : PatternSource) : (s.setPattern v).scan = s.scan := rfl
@[simp] theorem State.setPattern_converter (v : PatternSource) : (s.setPattern v).converter = s.converter := rfl
@[simp] theorem State.setPattern_console (v : PatternSource) : (s.setPattern v).console = s.console := rfl
@[simp] theorem State.setPattern_faults (v : PatternSource) : (s.setPattern v).faults = s.faults := rfl

/-! ### setFlatLevel -/

@[simp] theorem State.setFlatLevel_pending (v : Nat) : (s.setFlatLevel v).pending = s.pending := rfl
@[simp] theorem State.setFlatLevel_now (v : Nat) : (s.setFlatLevel v).now = s.now := rfl
@[simp] theorem State.setFlatLevel_resetPhase (v : Nat) : (s.setFlatLevel v).resetPhase = s.resetPhase := rfl
@[simp] theorem State.setFlatLevel_due (v : Nat) : (s.setFlatLevel v).due = s.due := rfl
@[simp] theorem State.setFlatLevel_draws (v : Nat) : (s.setFlatLevel v).draws = s.draws := rfl
@[simp] theorem State.setFlatLevel_straps (v : Nat) : (s.setFlatLevel v).straps = s.straps := rfl
@[simp] theorem State.setFlatLevel_eeprom (v : Nat) : (s.setFlatLevel v).eeprom = s.eeprom := rfl
@[simp] theorem State.setFlatLevel_loader (v : Nat) : (s.setFlatLevel v).loader = s.loader := rfl
@[simp] theorem State.setFlatLevel_settings (v : Nat) : (s.setFlatLevel v).settings = s.settings := rfl
@[simp] theorem State.setFlatLevel_input (v : Nat) : (s.setFlatLevel v).input = s.input := rfl
@[simp] theorem State.setFlatLevel_buffers (v : Nat) : (s.setFlatLevel v).buffers = s.buffers := rfl
@[simp] theorem State.setFlatLevel_encoder (v : Nat) : (s.setFlatLevel v).encoder = s.encoder := rfl
@[simp] theorem State.setFlatLevel_patternSource (v : Nat) : (s.setFlatLevel v).patternSource = s.patternSource := rfl
@[simp] theorem State.setFlatLevel_flatLevel (v : Nat) : (s.setFlatLevel v).flatLevel = v := rfl
@[simp] theorem State.setFlatLevel_zones (v : Nat) : (s.setFlatLevel v).zones = s.zones := rfl
@[simp] theorem State.setFlatLevel_life (v : Nat) : (s.setFlatLevel v).life = s.life := rfl
@[simp] theorem State.setFlatLevel_level (v : Nat) : (s.setFlatLevel v).level = s.level := rfl
@[simp] theorem State.setFlatLevel_peers (v : Nat) : (s.setFlatLevel v).peers = s.peers := rfl
@[simp] theorem State.setFlatLevel_schedule (v : Nat) : (s.setFlatLevel v).schedule = s.schedule := rfl
@[simp] theorem State.setFlatLevel_bus (v : Nat) : (s.setFlatLevel v).bus = s.bus := rfl
@[simp] theorem State.setFlatLevel_timer (v : Nat) : (s.setFlatLevel v).timer = s.timer := rfl
@[simp] theorem State.setFlatLevel_photo (v : Nat) : (s.setFlatLevel v).photo = s.photo := rfl
@[simp] theorem State.setFlatLevel_scan (v : Nat) : (s.setFlatLevel v).scan = s.scan := rfl
@[simp] theorem State.setFlatLevel_converter (v : Nat) : (s.setFlatLevel v).converter = s.converter := rfl
@[simp] theorem State.setFlatLevel_console (v : Nat) : (s.setFlatLevel v).console = s.console := rfl
@[simp] theorem State.setFlatLevel_faults (v : Nat) : (s.setFlatLevel v).faults = s.faults := rfl

/-! ### setZones -/

@[simp] theorem State.setZones_pending (v : List Zone) : (s.setZones v).pending = s.pending := rfl
@[simp] theorem State.setZones_now (v : List Zone) : (s.setZones v).now = s.now := rfl
@[simp] theorem State.setZones_resetPhase (v : List Zone) : (s.setZones v).resetPhase = s.resetPhase := rfl
@[simp] theorem State.setZones_due (v : List Zone) : (s.setZones v).due = s.due := rfl
@[simp] theorem State.setZones_draws (v : List Zone) : (s.setZones v).draws = s.draws := rfl
@[simp] theorem State.setZones_straps (v : List Zone) : (s.setZones v).straps = s.straps := rfl
@[simp] theorem State.setZones_eeprom (v : List Zone) : (s.setZones v).eeprom = s.eeprom := rfl
@[simp] theorem State.setZones_loader (v : List Zone) : (s.setZones v).loader = s.loader := rfl
@[simp] theorem State.setZones_settings (v : List Zone) : (s.setZones v).settings = s.settings := rfl
@[simp] theorem State.setZones_input (v : List Zone) : (s.setZones v).input = s.input := rfl
@[simp] theorem State.setZones_buffers (v : List Zone) : (s.setZones v).buffers = s.buffers := rfl
@[simp] theorem State.setZones_encoder (v : List Zone) : (s.setZones v).encoder = s.encoder := rfl
@[simp] theorem State.setZones_patternSource (v : List Zone) : (s.setZones v).patternSource = s.patternSource := rfl
@[simp] theorem State.setZones_flatLevel (v : List Zone) : (s.setZones v).flatLevel = s.flatLevel := rfl
@[simp] theorem State.setZones_zones (v : List Zone) : (s.setZones v).zones = v := rfl
@[simp] theorem State.setZones_life (v : List Zone) : (s.setZones v).life = s.life := rfl
@[simp] theorem State.setZones_level (v : List Zone) : (s.setZones v).level = s.level := rfl
@[simp] theorem State.setZones_peers (v : List Zone) : (s.setZones v).peers = s.peers := rfl
@[simp] theorem State.setZones_schedule (v : List Zone) : (s.setZones v).schedule = s.schedule := rfl
@[simp] theorem State.setZones_bus (v : List Zone) : (s.setZones v).bus = s.bus := rfl
@[simp] theorem State.setZones_timer (v : List Zone) : (s.setZones v).timer = s.timer := rfl
@[simp] theorem State.setZones_photo (v : List Zone) : (s.setZones v).photo = s.photo := rfl
@[simp] theorem State.setZones_scan (v : List Zone) : (s.setZones v).scan = s.scan := rfl
@[simp] theorem State.setZones_converter (v : List Zone) : (s.setZones v).converter = s.converter := rfl
@[simp] theorem State.setZones_console (v : List Zone) : (s.setZones v).console = s.console := rfl
@[simp] theorem State.setZones_faults (v : List Zone) : (s.setZones v).faults = s.faults := rfl

/-! ### setLife -/

@[simp] theorem State.setLife_pending (v : Lifecycle) : (s.setLife v).pending = s.pending := rfl
@[simp] theorem State.setLife_now (v : Lifecycle) : (s.setLife v).now = s.now := rfl
@[simp] theorem State.setLife_resetPhase (v : Lifecycle) : (s.setLife v).resetPhase = s.resetPhase := rfl
@[simp] theorem State.setLife_due (v : Lifecycle) : (s.setLife v).due = s.due := rfl
@[simp] theorem State.setLife_draws (v : Lifecycle) : (s.setLife v).draws = s.draws := rfl
@[simp] theorem State.setLife_straps (v : Lifecycle) : (s.setLife v).straps = s.straps := rfl
@[simp] theorem State.setLife_eeprom (v : Lifecycle) : (s.setLife v).eeprom = s.eeprom := rfl
@[simp] theorem State.setLife_loader (v : Lifecycle) : (s.setLife v).loader = s.loader := rfl
@[simp] theorem State.setLife_settings (v : Lifecycle) : (s.setLife v).settings = s.settings := rfl
@[simp] theorem State.setLife_input (v : Lifecycle) : (s.setLife v).input = s.input := rfl
@[simp] theorem State.setLife_buffers (v : Lifecycle) : (s.setLife v).buffers = s.buffers := rfl
@[simp] theorem State.setLife_encoder (v : Lifecycle) : (s.setLife v).encoder = s.encoder := rfl
@[simp] theorem State.setLife_patternSource (v : Lifecycle) : (s.setLife v).patternSource = s.patternSource := rfl
@[simp] theorem State.setLife_flatLevel (v : Lifecycle) : (s.setLife v).flatLevel = s.flatLevel := rfl
@[simp] theorem State.setLife_zones (v : Lifecycle) : (s.setLife v).zones = s.zones := rfl
@[simp] theorem State.setLife_life (v : Lifecycle) : (s.setLife v).life = v := rfl
@[simp] theorem State.setLife_level (v : Lifecycle) : (s.setLife v).level = s.level := rfl
@[simp] theorem State.setLife_peers (v : Lifecycle) : (s.setLife v).peers = s.peers := rfl
@[simp] theorem State.setLife_schedule (v : Lifecycle) : (s.setLife v).schedule = s.schedule := rfl
@[simp] theorem State.setLife_bus (v : Lifecycle) : (s.setLife v).bus = s.bus := rfl
@[simp] theorem State.setLife_timer (v : Lifecycle) : (s.setLife v).timer = s.timer := rfl
@[simp] theorem State.setLife_photo (v : Lifecycle) : (s.setLife v).photo = s.photo := rfl
@[simp] theorem State.setLife_scan (v : Lifecycle) : (s.setLife v).scan = s.scan := rfl
@[simp] theorem State.setLife_converter (v : Lifecycle) : (s.setLife v).converter = s.converter := rfl
@[simp] theorem State.setLife_console (v : Lifecycle) : (s.setLife v).console = s.console := rfl
@[simp] theorem State.setLife_faults (v : Lifecycle) : (s.setLife v).faults = s.faults := rfl

/-! ### setLevel -/

@[simp] theorem State.setLevel_pending (v : LevelControl) : (s.setLevel v).pending = s.pending := rfl
@[simp] theorem State.setLevel_now (v : LevelControl) : (s.setLevel v).now = s.now := rfl
@[simp] theorem State.setLevel_resetPhase (v : LevelControl) : (s.setLevel v).resetPhase = s.resetPhase := rfl
@[simp] theorem State.setLevel_due (v : LevelControl) : (s.setLevel v).due = s.due := rfl
@[simp] theorem State.setLevel_draws (v : LevelControl) : (s.setLevel v).draws = s.draws := rfl
@[simp] theorem State.setLevel_straps (v : LevelControl) : (s.setLevel v).straps = s.straps := rfl
@[simp] theorem State.setLevel_eeprom (v : LevelControl) : (s.setLevel v).eeprom = s.eeprom := rfl
@[simp] theorem State.setLevel_loader (v : LevelControl) : (s.setLevel v).loader = s.loader := rfl
@[simp] theorem State.setLevel_settings (v : LevelControl) : (s.setLevel v).settings = s.settings := rfl
@[simp] theorem State.setLevel_input (v : LevelControl) : (s.setLevel v).input = s.input := rfl
@[simp] theorem State.setLevel_buffers (v : LevelControl) : (s.setLevel v).buffers = s.buffers := rfl
@[simp] theorem State.setLevel_encoder (v : LevelControl) : (s.setLevel v).encoder = s.encoder := rfl
@[simp] theorem State.setLevel_patternSource (v : LevelControl) : (s.setLevel v).patternSource = s.patternSource := rfl
@[simp] theorem State.setLevel_flatLevel (v : LevelControl) : (s.setLevel v).flatLevel = s.flatLevel := rfl
@[simp] theorem State.setLevel_zones (v : LevelControl) : (s.setLevel v).zones = s.zones := rfl
@[simp] theorem State.setLevel_life (v : LevelControl) : (s.setLevel v).life = s.life := rfl
@[simp] theorem State.setLevel_level (v : LevelControl) : (s.setLevel v).level = v := rfl
@[simp] theorem State.setLevel_peers (v : LevelControl) : (s.setLevel v).peers = s.peers := rfl
@[simp] theorem State.setLevel_schedule (v : LevelControl) : (s.setLevel v).schedule = s.schedule := rfl
@[simp] theorem State.setLevel_bus (v : LevelControl) : (s.setLevel v).bus = s.bus := rfl
@[simp] theorem State.setLevel_timer (v : LevelControl) : (s.setLevel v).timer = s.timer := rfl
@[simp] theorem State.setLevel_photo (v : LevelControl) : (s.setLevel v).photo = s.photo := rfl
@[simp] theorem State.setLevel_scan (v : LevelControl) : (s.setLevel v).scan = s.scan := rfl
@[simp] theorem State.setLevel_converter (v : LevelControl) : (s.setLevel v).converter = s.converter := rfl
@[simp] theorem State.setLevel_console (v : LevelControl) : (s.setLevel v).console = s.console := rfl
@[simp] theorem State.setLevel_faults (v : LevelControl) : (s.setLevel v).faults = s.faults := rfl

/-! ### setPeers -/

@[simp] theorem State.setPeers_pending (v : List PeerEntry) : (s.setPeers v).pending = s.pending := rfl
@[simp] theorem State.setPeers_now (v : List PeerEntry) : (s.setPeers v).now = s.now := rfl
@[simp] theorem State.setPeers_resetPhase (v : List PeerEntry) : (s.setPeers v).resetPhase = s.resetPhase := rfl
@[simp] theorem State.setPeers_due (v : List PeerEntry) : (s.setPeers v).due = s.due := rfl
@[simp] theorem State.setPeers_draws (v : List PeerEntry) : (s.setPeers v).draws = s.draws := rfl
@[simp] theorem State.setPeers_straps (v : List PeerEntry) : (s.setPeers v).straps = s.straps := rfl
@[simp] theorem State.setPeers_eeprom (v : List PeerEntry) : (s.setPeers v).eeprom = s.eeprom := rfl
@[simp] theorem State.setPeers_loader (v : List PeerEntry) : (s.setPeers v).loader = s.loader := rfl
@[simp] theorem State.setPeers_settings (v : List PeerEntry) : (s.setPeers v).settings = s.settings := rfl
@[simp] theorem State.setPeers_input (v : List PeerEntry) : (s.setPeers v).input = s.input := rfl
@[simp] theorem State.setPeers_buffers (v : List PeerEntry) : (s.setPeers v).buffers = s.buffers := rfl
@[simp] theorem State.setPeers_encoder (v : List PeerEntry) : (s.setPeers v).encoder = s.encoder := rfl
@[simp] theorem State.setPeers_patternSource (v : List PeerEntry) : (s.setPeers v).patternSource = s.patternSource := rfl
@[simp] theorem State.setPeers_flatLevel (v : List PeerEntry) : (s.setPeers v).flatLevel = s.flatLevel := rfl
@[simp] theorem State.setPeers_zones (v : List PeerEntry) : (s.setPeers v).zones = s.zones := rfl
@[simp] theorem State.setPeers_life (v : List PeerEntry) : (s.setPeers v).life = s.life := rfl
@[simp] theorem State.setPeers_level (v : List PeerEntry) : (s.setPeers v).level = s.level := rfl
@[simp] theorem State.setPeers_peers (v : List PeerEntry) : (s.setPeers v).peers = v := rfl
@[simp] theorem State.setPeers_schedule (v : List PeerEntry) : (s.setPeers v).schedule = s.schedule := rfl
@[simp] theorem State.setPeers_bus (v : List PeerEntry) : (s.setPeers v).bus = s.bus := rfl
@[simp] theorem State.setPeers_timer (v : List PeerEntry) : (s.setPeers v).timer = s.timer := rfl
@[simp] theorem State.setPeers_photo (v : List PeerEntry) : (s.setPeers v).photo = s.photo := rfl
@[simp] theorem State.setPeers_scan (v : List PeerEntry) : (s.setPeers v).scan = s.scan := rfl
@[simp] theorem State.setPeers_converter (v : List PeerEntry) : (s.setPeers v).converter = s.converter := rfl
@[simp] theorem State.setPeers_console (v : List PeerEntry) : (s.setPeers v).console = s.console := rfl
@[simp] theorem State.setPeers_faults (v : List PeerEntry) : (s.setPeers v).faults = s.faults := rfl

/-! ### setSchedule -/

@[simp] theorem State.setSchedule_pending (v : Schedule) : (s.setSchedule v).pending = s.pending := rfl
@[simp] theorem State.setSchedule_now (v : Schedule) : (s.setSchedule v).now = s.now := rfl
@[simp] theorem State.setSchedule_resetPhase (v : Schedule) : (s.setSchedule v).resetPhase = s.resetPhase := rfl
@[simp] theorem State.setSchedule_due (v : Schedule) : (s.setSchedule v).due = s.due := rfl
@[simp] theorem State.setSchedule_draws (v : Schedule) : (s.setSchedule v).draws = s.draws := rfl
@[simp] theorem State.setSchedule_straps (v : Schedule) : (s.setSchedule v).straps = s.straps := rfl
@[simp] theorem State.setSchedule_eeprom (v : Schedule) : (s.setSchedule v).eeprom = s.eeprom := rfl
@[simp] theorem State.setSchedule_loader (v : Schedule) : (s.setSchedule v).loader = s.loader := rfl
@[simp] theorem State.setSchedule_settings (v : Schedule) : (s.setSchedule v).settings = s.settings := rfl
@[simp] theorem State.setSchedule_input (v : Schedule) : (s.setSchedule v).input = s.input := rfl
@[simp] theorem State.setSchedule_buffers (v : Schedule) : (s.setSchedule v).buffers = s.buffers := rfl
@[simp] theorem State.setSchedule_encoder (v : Schedule) : (s.setSchedule v).encoder = s.encoder := rfl
@[simp] theorem State.setSchedule_patternSource (v : Schedule) : (s.setSchedule v).patternSource = s.patternSource := rfl
@[simp] theorem State.setSchedule_flatLevel (v : Schedule) : (s.setSchedule v).flatLevel = s.flatLevel := rfl
@[simp] theorem State.setSchedule_zones (v : Schedule) : (s.setSchedule v).zones = s.zones := rfl
@[simp] theorem State.setSchedule_life (v : Schedule) : (s.setSchedule v).life = s.life := rfl
@[simp] theorem State.setSchedule_level (v : Schedule) : (s.setSchedule v).level = s.level := rfl
@[simp] theorem State.setSchedule_peers (v : Schedule) : (s.setSchedule v).peers = s.peers := rfl
@[simp] theorem State.setSchedule_schedule (v : Schedule) : (s.setSchedule v).schedule = v := rfl
@[simp] theorem State.setSchedule_bus (v : Schedule) : (s.setSchedule v).bus = s.bus := rfl
@[simp] theorem State.setSchedule_timer (v : Schedule) : (s.setSchedule v).timer = s.timer := rfl
@[simp] theorem State.setSchedule_photo (v : Schedule) : (s.setSchedule v).photo = s.photo := rfl
@[simp] theorem State.setSchedule_scan (v : Schedule) : (s.setSchedule v).scan = s.scan := rfl
@[simp] theorem State.setSchedule_converter (v : Schedule) : (s.setSchedule v).converter = s.converter := rfl
@[simp] theorem State.setSchedule_console (v : Schedule) : (s.setSchedule v).console = s.console := rfl
@[simp] theorem State.setSchedule_faults (v : Schedule) : (s.setSchedule v).faults = s.faults := rfl

/-! ### setBus -/

@[simp] theorem State.setBus_pending (v : Bus) : (s.setBus v).pending = s.pending := rfl
@[simp] theorem State.setBus_now (v : Bus) : (s.setBus v).now = s.now := rfl
@[simp] theorem State.setBus_resetPhase (v : Bus) : (s.setBus v).resetPhase = s.resetPhase := rfl
@[simp] theorem State.setBus_due (v : Bus) : (s.setBus v).due = s.due := rfl
@[simp] theorem State.setBus_draws (v : Bus) : (s.setBus v).draws = s.draws := rfl
@[simp] theorem State.setBus_straps (v : Bus) : (s.setBus v).straps = s.straps := rfl
@[simp] theorem State.setBus_eeprom (v : Bus) : (s.setBus v).eeprom = s.eeprom := rfl
@[simp] theorem State.setBus_loader (v : Bus) : (s.setBus v).loader = s.loader := rfl
@[simp] theorem State.setBus_settings (v : Bus) : (s.setBus v).settings = s.settings := rfl
@[simp] theorem State.setBus_input (v : Bus) : (s.setBus v).input = s.input := rfl
@[simp] theorem State.setBus_buffers (v : Bus) : (s.setBus v).buffers = s.buffers := rfl
@[simp] theorem State.setBus_encoder (v : Bus) : (s.setBus v).encoder = s.encoder := rfl
@[simp] theorem State.setBus_patternSource (v : Bus) : (s.setBus v).patternSource = s.patternSource := rfl
@[simp] theorem State.setBus_flatLevel (v : Bus) : (s.setBus v).flatLevel = s.flatLevel := rfl
@[simp] theorem State.setBus_zones (v : Bus) : (s.setBus v).zones = s.zones := rfl
@[simp] theorem State.setBus_life (v : Bus) : (s.setBus v).life = s.life := rfl
@[simp] theorem State.setBus_level (v : Bus) : (s.setBus v).level = s.level := rfl
@[simp] theorem State.setBus_peers (v : Bus) : (s.setBus v).peers = s.peers := rfl
@[simp] theorem State.setBus_schedule (v : Bus) : (s.setBus v).schedule = s.schedule := rfl
@[simp] theorem State.setBus_bus (v : Bus) : (s.setBus v).bus = v := rfl
@[simp] theorem State.setBus_timer (v : Bus) : (s.setBus v).timer = s.timer := rfl
@[simp] theorem State.setBus_photo (v : Bus) : (s.setBus v).photo = s.photo := rfl
@[simp] theorem State.setBus_scan (v : Bus) : (s.setBus v).scan = s.scan := rfl
@[simp] theorem State.setBus_converter (v : Bus) : (s.setBus v).converter = s.converter := rfl
@[simp] theorem State.setBus_console (v : Bus) : (s.setBus v).console = s.console := rfl
@[simp] theorem State.setBus_faults (v : Bus) : (s.setBus v).faults = s.faults := rfl

/-! ### setTimer -/

@[simp] theorem State.setTimer_pending (v : FrameTimer) : (s.setTimer v).pending = s.pending := rfl
@[simp] theorem State.setTimer_now (v : FrameTimer) : (s.setTimer v).now = s.now := rfl
@[simp] theorem State.setTimer_resetPhase (v : FrameTimer) : (s.setTimer v).resetPhase = s.resetPhase := rfl
@[simp] theorem State.setTimer_due (v : FrameTimer) : (s.setTimer v).due = s.due := rfl
@[simp] theorem State.setTimer_draws (v : FrameTimer) : (s.setTimer v).draws = s.draws := rfl
@[simp] theorem State.setTimer_straps (v : FrameTimer) : (s.setTimer v).straps = s.straps := rfl
@[simp] theorem State.setTimer_eeprom (v : FrameTimer) : (s.setTimer v).eeprom = s.eeprom := rfl
@[simp] theorem State.setTimer_loader (v : FrameTimer) : (s.setTimer v).loader = s.loader := rfl
@[simp] theorem State.setTimer_settings (v : FrameTimer) : (s.setTimer v).settings = s.settings := rfl
@[simp] theorem State.setTimer_input (v : FrameTimer) : (s.setTimer v).input = s.input := rfl
@[simp] theorem State.setTimer_buffers (v : FrameTimer) : (s.setTimer v).buffers = s.buffers := rfl
@[simp] theorem State.setTimer_encoder (v : FrameTimer) : (s.setTimer v).encoder = s.encoder := rfl
@[simp] theorem State.setTimer_patternSource (v : FrameTimer) : (s.setTimer v).patternSource = s.patternSource := rfl
@[simp] theorem State.setTimer_flatLevel (v : FrameTimer) : (s.setTimer v).flatLevel = s.flatLevel := rfl
@[simp] theorem State.setTimer_zones (v : FrameTimer) : (s.setTimer v).zones = s.zones := rfl
@[simp] theorem State.setTimer_life (v : FrameTimer) : (s.setTimer v).life = s.life := rfl
@[simp] theorem State.setTimer_level (v : FrameTimer) : (s.setTimer v).level = s.level := rfl
@[simp] theorem State.setTimer_peers (v : FrameTimer) : (s.setTimer v).peers = s.peers := rfl
@[simp] theorem State.setTimer_schedule (v : FrameTimer) : (s.setTimer v).schedule = s.schedule := rfl
@[simp] theorem State.setTimer_bus (v : FrameTimer) : (s.setTimer v).bus = s.bus := rfl
@[simp] theorem State.setTimer_timer (v : FrameTimer) : (s.setTimer v).timer = v := rfl
@[simp] theorem State.setTimer_photo (v : FrameTimer) : (s.setTimer v).photo = s.photo := rfl
@[simp] theorem State.setTimer_scan (v : FrameTimer) : (s.setTimer v).scan = s.scan := rfl
@[simp] theorem State.setTimer_converter (v : FrameTimer) : (s.setTimer v).converter = s.converter := rfl
@[simp] theorem State.setTimer_console (v : FrameTimer) : (s.setTimer v).console = s.console := rfl
@[simp] theorem State.setTimer_faults (v : FrameTimer) : (s.setTimer v).faults = s.faults := rfl

/-! ### setPhoto -/

@[simp] theorem State.setPhoto_pending (v : Photometer) : (s.setPhoto v).pending = s.pending := rfl
@[simp] theorem State.setPhoto_now (v : Photometer) : (s.setPhoto v).now = s.now := rfl
@[simp] theorem State.setPhoto_resetPhase (v : Photometer) : (s.setPhoto v).resetPhase = s.resetPhase := rfl
@[simp] theorem State.setPhoto_due (v : Photometer) : (s.setPhoto v).due = s.due := rfl
@[simp] theorem State.setPhoto_draws (v : Photometer) : (s.setPhoto v).draws = s.draws := rfl
@[simp] theorem State.setPhoto_straps (v : Photometer) : (s.setPhoto v).straps = s.straps := rfl
@[simp] theorem State.setPhoto_eeprom (v : Photometer) : (s.setPhoto v).eeprom = s.eeprom := rfl
@[simp] theorem State.setPhoto_loader (v : Photometer) : (s.setPhoto v).loader = s.loader := rfl
@[simp] theorem State.setPhoto_settings (v : Photometer) : (s.setPhoto v).settings = s.settings := rfl
@[simp] theorem State.setPhoto_input (v : Photometer) : (s.setPhoto v).input = s.input := rfl
@[simp] theorem State.setPhoto_buffers (v : Photometer) : (s.setPhoto v).buffers = s.buffers := rfl
@[simp] theorem State.setPhoto_encoder (v : Photometer) : (s.setPhoto v).encoder = s.encoder := rfl
@[simp] theorem State.setPhoto_patternSource (v : Photometer) : (s.setPhoto v).patternSource = s.patternSource := rfl
@[simp] theorem State.setPhoto_flatLevel (v : Photometer) : (s.setPhoto v).flatLevel = s.flatLevel := rfl
@[simp] theorem State.setPhoto_zones (v : Photometer) : (s.setPhoto v).zones = s.zones := rfl
@[simp] theorem State.setPhoto_life (v : Photometer) : (s.setPhoto v).life = s.life := rfl
@[simp] theorem State.setPhoto_level (v : Photometer) : (s.setPhoto v).level = s.level := rfl
@[simp] theorem State.setPhoto_peers (v : Photometer) : (s.setPhoto v).peers = s.peers := rfl
@[simp] theorem State.setPhoto_schedule (v : Photometer) : (s.setPhoto v).schedule = s.schedule := rfl
@[simp] theorem State.setPhoto_bus (v : Photometer) : (s.setPhoto v).bus = s.bus := rfl
@[simp] theorem State.setPhoto_timer (v : Photometer) : (s.setPhoto v).timer = s.timer := rfl
@[simp] theorem State.setPhoto_photo (v : Photometer) : (s.setPhoto v).photo = v := rfl
@[simp] theorem State.setPhoto_scan (v : Photometer) : (s.setPhoto v).scan = s.scan := rfl
@[simp] theorem State.setPhoto_converter (v : Photometer) : (s.setPhoto v).converter = s.converter := rfl
@[simp] theorem State.setPhoto_console (v : Photometer) : (s.setPhoto v).console = s.console := rfl
@[simp] theorem State.setPhoto_faults (v : Photometer) : (s.setPhoto v).faults = s.faults := rfl

/-! ### setScan -/

@[simp] theorem State.setScan_pending (v : Option Scan) : (s.setScan v).pending = s.pending := rfl
@[simp] theorem State.setScan_now (v : Option Scan) : (s.setScan v).now = s.now := rfl
@[simp] theorem State.setScan_resetPhase (v : Option Scan) : (s.setScan v).resetPhase = s.resetPhase := rfl
@[simp] theorem State.setScan_due (v : Option Scan) : (s.setScan v).due = s.due := rfl
@[simp] theorem State.setScan_draws (v : Option Scan) : (s.setScan v).draws = s.draws := rfl
@[simp] theorem State.setScan_straps (v : Option Scan) : (s.setScan v).straps = s.straps := rfl
@[simp] theorem State.setScan_eeprom (v : Option Scan) : (s.setScan v).eeprom = s.eeprom := rfl
@[simp] theorem State.setScan_loader (v : Option Scan) : (s.setScan v).loader = s.loader := rfl
@[simp] theorem State.setScan_settings (v : Option Scan) : (s.setScan v).settings = s.settings := rfl
@[simp] theorem State.setScan_input (v : Option Scan) : (s.setScan v).input = s.input := rfl
@[simp] theorem State.setScan_buffers (v : Option Scan) : (s.setScan v).buffers = s.buffers := rfl
@[simp] theorem State.setScan_encoder (v : Option Scan) : (s.setScan v).encoder = s.encoder := rfl
@[simp] theorem State.setScan_patternSource (v : Option Scan) : (s.setScan v).patternSource = s.patternSource := rfl
@[simp] theorem State.setScan_flatLevel (v : Option Scan) : (s.setScan v).flatLevel = s.flatLevel := rfl
@[simp] theorem State.setScan_zones (v : Option Scan) : (s.setScan v).zones = s.zones := rfl
@[simp] theorem State.setScan_life (v : Option Scan) : (s.setScan v).life = s.life := rfl
@[simp] theorem State.setScan_level (v : Option Scan) : (s.setScan v).level = s.level := rfl
@[simp] theorem State.setScan_peers (v : Option Scan) : (s.setScan v).peers = s.peers := rfl
@[simp] theorem State.setScan_schedule (v : Option Scan) : (s.setScan v).schedule = s.schedule := rfl
@[simp] theorem State.setScan_bus (v : Option Scan) : (s.setScan v).bus = s.bus := rfl
@[simp] theorem State.setScan_timer (v : Option Scan) : (s.setScan v).timer = s.timer := rfl
@[simp] theorem State.setScan_photo (v : Option Scan) : (s.setScan v).photo = s.photo := rfl
@[simp] theorem State.setScan_scan (v : Option Scan) : (s.setScan v).scan = v := rfl
@[simp] theorem State.setScan_converter (v : Option Scan) : (s.setScan v).converter = s.converter := rfl
@[simp] theorem State.setScan_console (v : Option Scan) : (s.setScan v).console = s.console := rfl
@[simp] theorem State.setScan_faults (v : Option Scan) : (s.setScan v).faults = s.faults := rfl

/-! ### setConverter -/

@[simp] theorem State.setConverter_pending (v : List (BitVec 12)) : (s.setConverter v).pending = s.pending := rfl
@[simp] theorem State.setConverter_now (v : List (BitVec 12)) : (s.setConverter v).now = s.now := rfl
@[simp] theorem State.setConverter_resetPhase (v : List (BitVec 12)) : (s.setConverter v).resetPhase = s.resetPhase := rfl
@[simp] theorem State.setConverter_due (v : List (BitVec 12)) : (s.setConverter v).due = s.due := rfl
@[simp] theorem State.setConverter_draws (v : List (BitVec 12)) : (s.setConverter v).draws = s.draws := rfl
@[simp] theorem State.setConverter_straps (v : List (BitVec 12)) : (s.setConverter v).straps = s.straps := rfl
@[simp] theorem State.setConverter_eeprom (v : List (BitVec 12)) : (s.setConverter v).eeprom = s.eeprom := rfl
@[simp] theorem State.setConverter_loader (v : List (BitVec 12)) : (s.setConverter v).loader = s.loader := rfl
@[simp] theorem State.setConverter_settings (v : List (BitVec 12)) : (s.setConverter v).settings = s.settings := rfl
@[simp] theorem State.setConverter_input (v : List (BitVec 12)) : (s.setConverter v).input = s.input := rfl
@[simp] theorem State.setConverter_buffers (v : List (BitVec 12)) : (s.setConverter v).buffers = s.buffers := rfl
@[simp] theorem State.setConverter_encoder (v : List (BitVec 12)) : (s.setConverter v).encoder = s.encoder := rfl
@[simp] theorem State.setConverter_patternSource (v : List (BitVec 12)) : (s.setConverter v).patternSource = s.patternSource := rfl
@[simp] theorem State.setConverter_flatLevel (v : List (BitVec 12)) : (s.setConverter v).flatLevel = s.flatLevel := rfl
@[simp] theorem State.setConverter_zones (v : List (BitVec 12)) : (s.setConverter v).zones = s.zones := rfl
@[simp] theorem State.setConverter_life (v : List (BitVec 12)) : (s.setConverter v).life = s.life := rfl
@[simp] theorem State.setConverter_level (v : List (BitVec 12)) : (s.setConverter v).level = s.level := rfl
@[simp] theorem State.setConverter_peers (v : List (BitVec 12)) : (s.setConverter v).peers = s.peers := rfl
@[simp] theorem State.setConverter_schedule (v : List (BitVec 12)) : (s.setConverter v).schedule = s.schedule := rfl
@[simp] theorem State.setConverter_bus (v : List (BitVec 12)) : (s.setConverter v).bus = s.bus := rfl
@[simp] theorem State.setConverter_timer (v : List (BitVec 12)) : (s.setConverter v).timer = s.timer := rfl
@[simp] theorem State.setConverter_photo (v : List (BitVec 12)) : (s.setConverter v).photo = s.photo := rfl
@[simp] theorem State.setConverter_scan (v : List (BitVec 12)) : (s.setConverter v).scan = s.scan := rfl
@[simp] theorem State.setConverter_converter (v : List (BitVec 12)) : (s.setConverter v).converter = v := rfl
@[simp] theorem State.setConverter_console (v : List (BitVec 12)) : (s.setConverter v).console = s.console := rfl
@[simp] theorem State.setConverter_faults (v : List (BitVec 12)) : (s.setConverter v).faults = s.faults := rfl

/-! ### setConsole -/

@[simp] theorem State.setConsole_pending (v : Console) : (s.setConsole v).pending = s.pending := rfl
@[simp] theorem State.setConsole_now (v : Console) : (s.setConsole v).now = s.now := rfl
@[simp] theorem State.setConsole_resetPhase (v : Console) : (s.setConsole v).resetPhase = s.resetPhase := rfl
@[simp] theorem State.setConsole_due (v : Console) : (s.setConsole v).due = s.due := rfl
@[simp] theorem State.setConsole_draws (v : Console) : (s.setConsole v).draws = s.draws := rfl
@[simp] theorem State.setConsole_straps (v : Console) : (s.setConsole v).straps = s.straps := rfl
@[simp] theorem State.setConsole_eeprom (v : Console) : (s.setConsole v).eeprom = s.eeprom := rfl
@[simp] theorem State.setConsole_loader (v : Console) : (s.setConsole v).loader = s.loader := rfl
@[simp] theorem State.setConsole_settings (v : Console) : (s.setConsole v).settings = s.settings := rfl
@[simp] theorem State.setConsole_input (v : Console) : (s.setConsole v).input = s.input := rfl
@[simp] theorem State.setConsole_buffers (v : Console) : (s.setConsole v).buffers = s.buffers := rfl
@[simp] theorem State.setConsole_encoder (v : Console) : (s.setConsole v).encoder = s.encoder := rfl
@[simp] theorem State.setConsole_patternSource (v : Console) : (s.setConsole v).patternSource = s.patternSource := rfl
@[simp] theorem State.setConsole_flatLevel (v : Console) : (s.setConsole v).flatLevel = s.flatLevel := rfl
@[simp] theorem State.setConsole_zones (v : Console) : (s.setConsole v).zones = s.zones := rfl
@[simp] theorem State.setConsole_life (v : Console) : (s.setConsole v).life = s.life := rfl
@[simp] theorem State.setConsole_level (v : Console) : (s.setConsole v).level = s.level := rfl
@[simp] theorem State.setConsole_peers (v : Console) : (s.setConsole v).peers = s.peers := rfl
@[simp] theorem State.setConsole_schedule (v : Console) : (s.setConsole v).schedule = s.schedule := rfl
@[simp] theorem State.setConsole_bus (v : Console) : (s.setConsole v).bus = s.bus := rfl
@[simp] theorem State.setConsole_timer (v : Console) : (s.setConsole v).timer = s.timer := rfl
@[simp] theorem State.setConsole_photo (v : Console) : (s.setConsole v).photo = s.photo := rfl
@[simp] theorem State.setConsole_scan (v : Console) : (s.setConsole v).scan = s.scan := rfl
@[simp] theorem State.setConsole_converter (v : Console) : (s.setConsole v).converter = s.converter := rfl
@[simp] theorem State.setConsole_console (v : Console) : (s.setConsole v).console = v := rfl
@[simp] theorem State.setConsole_faults (v : Console) : (s.setConsole v).faults = s.faults := rfl

/-! ### setFaults -/

@[simp] theorem State.setFaults_pending (v : FaultUnit) : (s.setFaults v).pending = s.pending := rfl
@[simp] theorem State.setFaults_now (v : FaultUnit) : (s.setFaults v).now = s.now := rfl
@[simp] theorem State.setFaults_resetPhase (v : FaultUnit) : (s.setFaults v).resetPhase = s.resetPhase := rfl
@[simp] theorem State.setFaults_due (v : FaultUnit) : (s.setFaults v).due = s.due := rfl
@[simp] theorem State.setFaults_draws (v : FaultUnit) : (s.setFaults v).draws = s.draws := rfl
@[simp] theorem State.setFaults_straps (v : FaultUnit) : (s.setFaults v).straps = s.straps := rfl
@[simp] theorem State.setFaults_eeprom (v : FaultUnit) : (s.setFaults v).eeprom = s.eeprom := rfl
@[simp] theorem State.setFaults_loader (v : FaultUnit) : (s.setFaults v).loader = s.loader := rfl
@[simp] theorem State.setFaults_settings (v : FaultUnit) : (s.setFaults v).settings = s.settings := rfl
@[simp] theorem State.setFaults_input (v : FaultUnit) : (s.setFaults v).input = s.input := rfl
@[simp] theorem State.setFaults_buffers (v : FaultUnit) : (s.setFaults v).buffers = s.buffers := rfl
@[simp] theorem State.setFaults_encoder (v : FaultUnit) : (s.setFaults v).encoder = s.encoder := rfl
@[simp] theorem State.setFaults_patternSource (v : FaultUnit) : (s.setFaults v).patternSource = s.patternSource := rfl
@[simp] theorem State.setFaults_flatLevel (v : FaultUnit) : (s.setFaults v).flatLevel = s.flatLevel := rfl
@[simp] theorem State.setFaults_zones (v : FaultUnit) : (s.setFaults v).zones = s.zones := rfl
@[simp] theorem State.setFaults_life (v : FaultUnit) : (s.setFaults v).life = s.life := rfl
@[simp] theorem State.setFaults_level (v : FaultUnit) : (s.setFaults v).level = s.level := rfl
@[simp] theorem State.setFaults_peers (v : FaultUnit) : (s.setFaults v).peers = s.peers := rfl
@[simp] theorem State.setFaults_schedule (v : FaultUnit) : (s.setFaults v).schedule = s.schedule := rfl
@[simp] theorem State.setFaults_bus (v : FaultUnit) : (s.setFaults v).bus = s.bus := rfl
@[simp] theorem State.setFaults_timer (v : FaultUnit) : (s.setFaults v).timer = s.timer := rfl
@[simp] theorem State.setFaults_photo (v : FaultUnit) : (s.setFaults v).photo = s.photo := rfl
@[simp] theorem State.setFaults_scan (v : FaultUnit) : (s.setFaults v).scan = s.scan := rfl
@[simp] theorem State.setFaults_converter (v : FaultUnit) : (s.setFaults v).converter = s.converter := rfl
@[simp] theorem State.setFaults_console (v : FaultUnit) : (s.setFaults v).console = s.console := rfl
@[simp] theorem State.setFaults_faults (v : FaultUnit) : (s.setFaults v).faults = v := rfl

end Sys2Proof.Machine
end

