-- ==== Sys2Proof/Laws/Frames.lean ====
section
/-! SUPPORT. What each shared operation leaves alone: one lemma for each operation, naming every part of the
state that it never changes. -/

namespace Sys2Proof.Machine

variable (s : State)

/-! ### Machine/Ops.lean -/

@[simp] theorem State.count_frame (c : Counter) :
    (s.count c).pending = s.pending ∧ (s.count c).now = s.now ∧ (s.count c).resetPhase = s.resetPhase
      ∧ (s.count c).due = s.due ∧ (s.count c).draws = s.draws ∧ (s.count c).straps = s.straps
      ∧ (s.count c).eeprom = s.eeprom ∧ (s.count c).loader = s.loader ∧ (s.count c).settings = s.settings
      ∧ (s.count c).input = s.input ∧ (s.count c).buffers = s.buffers ∧ (s.count c).encoder = s.encoder
      ∧ (s.count c).patternSource = s.patternSource ∧ (s.count c).flatLevel = s.flatLevel ∧ (s.count c).zones = s.zones
      ∧ (s.count c).life = s.life ∧ (s.count c).level = s.level ∧ (s.count c).peers = s.peers
      ∧ (s.count c).schedule = s.schedule ∧ (s.count c).bus = s.bus ∧ (s.count c).timer = s.timer
      ∧ (s.count c).photo = s.photo ∧ (s.count c).scan = s.scan ∧ (s.count c).converter = s.converter
      ∧ (s.count c).console = s.console := by
  simp [State.count]

@[simp] theorem State.report_frame (k : FaultKind) (d : Nat) :
    (s.report k d).pending = s.pending ∧ (s.report k d).now = s.now ∧ (s.report k d).resetPhase = s.resetPhase
      ∧ (s.report k d).due = s.due ∧ (s.report k d).draws = s.draws ∧ (s.report k d).straps = s.straps
      ∧ (s.report k d).eeprom = s.eeprom ∧ (s.report k d).loader = s.loader ∧ (s.report k d).settings = s.settings
      ∧ (s.report k d).input = s.input ∧ (s.report k d).buffers = s.buffers ∧ (s.report k d).encoder = s.encoder
      ∧ (s.report k d).patternSource = s.patternSource ∧ (s.report k d).flatLevel = s.flatLevel ∧ (s.report k d).zones = s.zones
      ∧ (s.report k d).life = s.life ∧ (s.report k d).level = s.level ∧ (s.report k d).peers = s.peers
      ∧ (s.report k d).schedule = s.schedule ∧ (s.report k d).bus = s.bus ∧ (s.report k d).timer = s.timer
      ∧ (s.report k d).photo = s.photo ∧ (s.report k d).scan = s.scan ∧ (s.report k d).converter = s.converter
      ∧ (s.report k d).console = s.console := by
  simp [State.report]

/-! ### Machine/Emission.lean -/

@[simp] theorem emitUntil_frame (t : Nat) :
    (emitUntil s t).pending = s.pending ∧ (emitUntil s t).now = s.now ∧ (emitUntil s t).resetPhase = s.resetPhase
      ∧ (emitUntil s t).due = s.due ∧ (emitUntil s t).draws = s.draws ∧ (emitUntil s t).straps = s.straps
      ∧ (emitUntil s t).eeprom = s.eeprom ∧ (emitUntil s t).loader = s.loader ∧ (emitUntil s t).settings = s.settings
      ∧ (emitUntil s t).input = s.input ∧ (emitUntil s t).buffers = s.buffers ∧ (emitUntil s t).patternSource = s.patternSource
      ∧ (emitUntil s t).flatLevel = s.flatLevel ∧ (emitUntil s t).zones = s.zones ∧ (emitUntil s t).life = s.life
      ∧ (emitUntil s t).level = s.level ∧ (emitUntil s t).peers = s.peers ∧ (emitUntil s t).schedule = s.schedule
      ∧ (emitUntil s t).bus = s.bus ∧ (emitUntil s t).timer = s.timer ∧ (emitUntil s t).photo = s.photo
      ∧ (emitUntil s t).scan = s.scan ∧ (emitUntil s t).converter = s.converter ∧ (emitUntil s t).console = s.console
      ∧ (emitUntil s t).faults = s.faults := by
  unfold emitUntil
  (repeat' (first | split | (dsimp only; split))) <;> simp

/-! ### Machine/Photometry.lean, Machine/Clock.lean: what runs with the clock -/

@[simp] theorem scanUntil_frame (t : Nat) :
    (scanUntil s t).pending = s.pending ∧ (scanUntil s t).now = s.now ∧ (scanUntil s t).resetPhase = s.resetPhase
      ∧ (scanUntil s t).due = s.due ∧ (scanUntil s t).draws = s.draws ∧ (scanUntil s t).straps = s.straps
      ∧ (scanUntil s t).eeprom = s.eeprom ∧ (scanUntil s t).loader = s.loader ∧ (scanUntil s t).settings = s.settings
      ∧ (scanUntil s t).input = s.input ∧ (scanUntil s t).buffers = s.buffers ∧ (scanUntil s t).encoder = s.encoder
      ∧ (scanUntil s t).patternSource = s.patternSource ∧ (scanUntil s t).flatLevel = s.flatLevel ∧ (scanUntil s t).zones = s.zones
      ∧ (scanUntil s t).life = s.life ∧ (scanUntil s t).level = s.level ∧ (scanUntil s t).peers = s.peers
      ∧ (scanUntil s t).schedule = s.schedule ∧ (scanUntil s t).bus = s.bus ∧ (scanUntil s t).timer = s.timer
      ∧ (scanUntil s t).photo = s.photo ∧ (scanUntil s t).console = s.console ∧ (scanUntil s t).faults = s.faults := by
  unfold scanUntil
  split <;> simp

@[simp] theorem advanceTo_frame (t : Nat) :
    (advanceTo t s).pending = s.pending ∧ (advanceTo t s).resetPhase = s.resetPhase ∧ (advanceTo t s).due = s.due
      ∧ (advanceTo t s).draws = s.draws ∧ (advanceTo t s).straps = s.straps ∧ (advanceTo t s).eeprom = s.eeprom
      ∧ (advanceTo t s).loader = s.loader ∧ (advanceTo t s).settings = s.settings ∧ (advanceTo t s).input = s.input
      ∧ (advanceTo t s).buffers = s.buffers ∧ (advanceTo t s).patternSource = s.patternSource ∧ (advanceTo t s).flatLevel = s.flatLevel
      ∧ (advanceTo t s).zones = s.zones ∧ (advanceTo t s).life = s.life ∧ (advanceTo t s).level = s.level
      ∧ (advanceTo t s).peers = s.peers ∧ (advanceTo t s).schedule = s.schedule ∧ (advanceTo t s).bus = s.bus
      ∧ (advanceTo t s).timer = s.timer ∧ (advanceTo t s).photo = s.photo ∧ (advanceTo t s).console = s.console
      ∧ (advanceTo t s).faults = s.faults := by
  unfold advanceTo
  (repeat' split) <;> simp

@[simp] theorem cutRaster_frame :
    (cutRaster s).pending = s.pending ∧ (cutRaster s).now = s.now ∧ (cutRaster s).resetPhase = s.resetPhase
      ∧ (cutRaster s).due = s.due ∧ (cutRaster s).draws = s.draws ∧ (cutRaster s).straps = s.straps
      ∧ (cutRaster s).eeprom = s.eeprom ∧ (cutRaster s).loader = s.loader ∧ (cutRaster s).settings = s.settings
      ∧ (cutRaster s).input = s.input ∧ (cutRaster s).buffers = s.buffers ∧ (cutRaster s).patternSource = s.patternSource
      ∧ (cutRaster s).flatLevel = s.flatLevel ∧ (cutRaster s).zones = s.zones ∧ (cutRaster s).life = s.life
      ∧ (cutRaster s).level = s.level ∧ (cutRaster s).peers = s.peers ∧ (cutRaster s).schedule = s.schedule
      ∧ (cutRaster s).bus = s.bus ∧ (cutRaster s).timer = s.timer ∧ (cutRaster s).photo = s.photo
      ∧ (cutRaster s).scan = s.scan ∧ (cutRaster s).converter = s.converter ∧ (cutRaster s).console = s.console := by
  unfold cutRaster
  (repeat' split) <;> simp

@[simp] theorem beginRaster_frame :
    (beginRaster s).pending = s.pending ∧ (beginRaster s).now = s.now ∧ (beginRaster s).resetPhase = s.resetPhase
      ∧ (beginRaster s).due = s.due ∧ (beginRaster s).draws = s.draws ∧ (beginRaster s).straps = s.straps
      ∧ (beginRaster s).eeprom = s.eeprom ∧ (beginRaster s).loader = s.loader ∧ (beginRaster s).settings = s.settings
      ∧ (beginRaster s).input = s.input ∧ (beginRaster s).buffers = s.buffers ∧ (beginRaster s).patternSource = s.patternSource
      ∧ (beginRaster s).flatLevel = s.flatLevel ∧ (beginRaster s).zones = s.zones ∧ (beginRaster s).life = s.life
      ∧ (beginRaster s).level = s.level ∧ (beginRaster s).peers = s.peers ∧ (beginRaster s).schedule = s.schedule
      ∧ (beginRaster s).bus = s.bus ∧ (beginRaster s).timer = s.timer ∧ (beginRaster s).photo = s.photo
      ∧ (beginRaster s).scan = s.scan ∧ (beginRaster s).converter = s.converter ∧ (beginRaster s).console = s.console
      ∧ (beginRaster s).faults = s.faults := by
  simp [beginRaster]

/-! ### Machine/Flags.lean -/

@[simp] theorem State.wantStatus_frame :
    (s.wantStatus).pending = s.pending ∧ (s.wantStatus).now = s.now ∧ (s.wantStatus).resetPhase = s.resetPhase
      ∧ (s.wantStatus).due = s.due ∧ (s.wantStatus).draws = s.draws ∧ (s.wantStatus).straps = s.straps
      ∧ (s.wantStatus).eeprom = s.eeprom ∧ (s.wantStatus).loader = s.loader ∧ (s.wantStatus).settings = s.settings
      ∧ (s.wantStatus).input = s.input ∧ (s.wantStatus).buffers = s.buffers ∧ (s.wantStatus).encoder = s.encoder
      ∧ (s.wantStatus).patternSource = s.patternSource ∧ (s.wantStatus).flatLevel = s.flatLevel ∧ (s.wantStatus).zones = s.zones
      ∧ (s.wantStatus).life = s.life ∧ (s.wantStatus).level = s.level ∧ (s.wantStatus).peers = s.peers
      ∧ (s.wantStatus).schedule = s.schedule ∧ (s.wantStatus).timer = s.timer ∧ (s.wantStatus).photo = s.photo
      ∧ (s.wantStatus).scan = s.scan ∧ (s.wantStatus).converter = s.converter ∧ (s.wantStatus).console = s.console
      ∧ (s.wantStatus).faults = s.faults := by
  simp [State.wantStatus]

@[simp] theorem State.wantHandover_frame :
    (s.wantHandover).pending = s.pending ∧ (s.wantHandover).now = s.now ∧ (s.wantHandover).resetPhase = s.resetPhase
      ∧ (s.wantHandover).due = s.due ∧ (s.wantHandover).draws = s.draws ∧ (s.wantHandover).straps = s.straps
      ∧ (s.wantHandover).eeprom = s.eeprom ∧ (s.wantHandover).loader = s.loader ∧ (s.wantHandover).settings = s.settings
      ∧ (s.wantHandover).input = s.input ∧ (s.wantHandover).buffers = s.buffers ∧ (s.wantHandover).encoder = s.encoder
      ∧ (s.wantHandover).patternSource = s.patternSource ∧ (s.wantHandover).flatLevel = s.flatLevel ∧ (s.wantHandover).zones = s.zones
      ∧ (s.wantHandover).life = s.life ∧ (s.wantHandover).level = s.level ∧ (s.wantHandover).peers = s.peers
      ∧ (s.wantHandover).schedule = s.schedule ∧ (s.wantHandover).timer = s.timer ∧ (s.wantHandover).photo = s.photo
      ∧ (s.wantHandover).scan = s.scan ∧ (s.wantHandover).converter = s.converter ∧ (s.wantHandover).console = s.console
      ∧ (s.wantHandover).faults = s.faults := by
  simp [State.wantHandover]

@[simp] theorem State.dropHandoverWanted_frame :
    (s.dropHandoverWanted).pending = s.pending ∧ (s.dropHandoverWanted).now = s.now ∧ (s.dropHandoverWanted).resetPhase = s.resetPhase
      ∧ (s.dropHandoverWanted).due = s.due ∧ (s.dropHandoverWanted).draws = s.draws ∧ (s.dropHandoverWanted).straps = s.straps
      ∧ (s.dropHandoverWanted).eeprom = s.eeprom ∧ (s.dropHandoverWanted).loader = s.loader ∧ (s.dropHandoverWanted).settings = s.settings
      ∧ (s.dropHandoverWanted).input = s.input ∧ (s.dropHandoverWanted).buffers = s.buffers ∧ (s.dropHandoverWanted).encoder = s.encoder
      ∧ (s.dropHandoverWanted).patternSource = s.patternSource ∧ (s.dropHandoverWanted).flatLevel = s.flatLevel ∧ (s.dropHandoverWanted).zones = s.zones
      ∧ (s.dropHandoverWanted).life = s.life ∧ (s.dropHandoverWanted).level = s.level ∧ (s.dropHandoverWanted).peers = s.peers
      ∧ (s.dropHandoverWanted).schedule = s.schedule ∧ (s.dropHandoverWanted).timer = s.timer ∧ (s.dropHandoverWanted).photo = s.photo
      ∧ (s.dropHandoverWanted).scan = s.scan ∧ (s.dropHandoverWanted).converter = s.converter ∧ (s.dropHandoverWanted).console = s.console
      ∧ (s.dropHandoverWanted).faults = s.faults := by
  simp [State.dropHandoverWanted]

@[simp] theorem refreshTx_frame :
    (refreshTx s).pending = s.pending ∧ (refreshTx s).now = s.now ∧ (refreshTx s).resetPhase = s.resetPhase
      ∧ (refreshTx s).due = s.due ∧ (refreshTx s).draws = s.draws ∧ (refreshTx s).straps = s.straps
      ∧ (refreshTx s).eeprom = s.eeprom ∧ (refreshTx s).loader = s.loader ∧ (refreshTx s).settings = s.settings
      ∧ (refreshTx s).input = s.input ∧ (refreshTx s).buffers = s.buffers ∧ (refreshTx s).encoder = s.encoder
      ∧ (refreshTx s).patternSource = s.patternSource ∧ (refreshTx s).flatLevel = s.flatLevel ∧ (refreshTx s).zones = s.zones
      ∧ (refreshTx s).life = s.life ∧ (refreshTx s).level = s.level ∧ (refreshTx s).peers = s.peers
      ∧ (refreshTx s).schedule = s.schedule ∧ (refreshTx s).timer = s.timer ∧ (refreshTx s).photo = s.photo
      ∧ (refreshTx s).scan = s.scan ∧ (refreshTx s).converter = s.converter ∧ (refreshTx s).console = s.console
      ∧ (refreshTx s).faults = s.faults := by
  unfold refreshTx
  (repeat' split) <;> simp

/-! ### Machine/Zones.lean -/

@[simp] theorem touchZones_frame (n : Nat) :
    (touchZones n s).pending = s.pending ∧ (touchZones n s).now = s.now ∧ (touchZones n s).resetPhase = s.resetPhase
      ∧ (touchZones n s).due = s.due ∧ (touchZones n s).draws = s.draws ∧ (touchZones n s).straps = s.straps
      ∧ (touchZones n s).eeprom = s.eeprom ∧ (touchZones n s).loader = s.loader ∧ (touchZones n s).settings = s.settings
      ∧ (touchZones n s).input = s.input ∧ (touchZones n s).buffers = s.buffers ∧ (touchZones n s).encoder = s.encoder
      ∧ (touchZones n s).patternSource = s.patternSource ∧ (touchZones n s).flatLevel = s.flatLevel ∧ (touchZones n s).life = s.life
      ∧ (touchZones n s).level = s.level ∧ (touchZones n s).peers = s.peers ∧ (touchZones n s).schedule = s.schedule
      ∧ (touchZones n s).bus = s.bus ∧ (touchZones n s).timer = s.timer ∧ (touchZones n s).photo = s.photo
      ∧ (touchZones n s).scan = s.scan ∧ (touchZones n s).converter = s.converter ∧ (touchZones n s).console = s.console
      ∧ (touchZones n s).faults = s.faults := by
  unfold touchZones
  (repeat' split) <;> simp

@[simp] theorem zonesAtJoining_frame :
    (zonesAtJoining s).pending = s.pending ∧ (zonesAtJoining s).now = s.now ∧ (zonesAtJoining s).resetPhase = s.resetPhase
      ∧ (zonesAtJoining s).due = s.due ∧ (zonesAtJoining s).draws = s.draws ∧ (zonesAtJoining s).straps = s.straps
      ∧ (zonesAtJoining s).eeprom = s.eeprom ∧ (zonesAtJoining s).loader = s.loader ∧ (zonesAtJoining s).settings = s.settings
      ∧ (zonesAtJoining s).input = s.input ∧ (zonesAtJoining s).buffers = s.buffers ∧ (zonesAtJoining s).encoder = s.encoder
      ∧ (zonesAtJoining s).patternSource = s.patternSource ∧ (zonesAtJoining s).flatLevel = s.flatLevel ∧ (zonesAtJoining s).life = s.life
      ∧ (zonesAtJoining s).level = s.level ∧ (zonesAtJoining s).peers = s.peers ∧ (zonesAtJoining s).schedule = s.schedule
      ∧ (zonesAtJoining s).bus = s.bus ∧ (zonesAtJoining s).timer = s.timer ∧ (zonesAtJoining s).photo = s.photo
      ∧ (zonesAtJoining s).scan = s.scan ∧ (zonesAtJoining s).converter = s.converter ∧ (zonesAtJoining s).console = s.console
      ∧ (zonesAtJoining s).faults = s.faults := by
  simp [zonesAtJoining]

@[simp] theorem zonesToWait_frame :
    (zonesToWait s).pending = s.pending ∧ (zonesToWait s).now = s.now ∧ (zonesToWait s).resetPhase = s.resetPhase
      ∧ (zonesToWait s).due = s.due ∧ (zonesToWait s).draws = s.draws ∧ (zonesToWait s).straps = s.straps
      ∧ (zonesToWait s).eeprom = s.eeprom ∧ (zonesToWait s).loader = s.loader ∧ (zonesToWait s).settings = s.settings
      ∧ (zonesToWait s).input = s.input ∧ (zonesToWait s).buffers = s.buffers ∧ (zonesToWait s).encoder = s.encoder
      ∧ (zonesToWait s).patternSource = s.patternSource ∧ (zonesToWait s).flatLevel = s.flatLevel ∧ (zonesToWait s).life = s.life
      ∧ (zonesToWait s).level = s.level ∧ (zonesToWait s).peers = s.peers ∧ (zonesToWait s).schedule = s.schedule
      ∧ (zonesToWait s).bus = s.bus ∧ (zonesToWait s).timer = s.timer ∧ (zonesToWait s).photo = s.photo
      ∧ (zonesToWait s).scan = s.scan ∧ (zonesToWait s).converter = s.converter ∧ (zonesToWait s).console = s.console
      ∧ (zonesToWait s).faults = s.faults := by
  simp [zonesToWait]

@[simp] theorem zonesAtMark_frame :
    (zonesAtMark s).pending = s.pending ∧ (zonesAtMark s).now = s.now ∧ (zonesAtMark s).resetPhase = s.resetPhase
      ∧ (zonesAtMark s).due = s.due ∧ (zonesAtMark s).draws = s.draws ∧ (zonesAtMark s).straps = s.straps
      ∧ (zonesAtMark s).eeprom = s.eeprom ∧ (zonesAtMark s).loader = s.loader ∧ (zonesAtMark s).settings = s.settings
      ∧ (zonesAtMark s).input = s.input ∧ (zonesAtMark s).buffers = s.buffers ∧ (zonesAtMark s).encoder = s.encoder
      ∧ (zonesAtMark s).patternSource = s.patternSource ∧ (zonesAtMark s).flatLevel = s.flatLevel ∧ (zonesAtMark s).life = s.life
      ∧ (zonesAtMark s).level = s.level ∧ (zonesAtMark s).peers = s.peers ∧ (zonesAtMark s).schedule = s.schedule
      ∧ (zonesAtMark s).bus = s.bus ∧ (zonesAtMark s).timer = s.timer ∧ (zonesAtMark s).photo = s.photo
      ∧ (zonesAtMark s).scan = s.scan ∧ (zonesAtMark s).converter = s.converter ∧ (zonesAtMark s).console = s.console
      ∧ (zonesAtMark s).faults = s.faults := by
  simp [zonesAtMark]

@[simp] theorem checkZone_frame (n i : Nat) :
    (checkZone n s i).pending = s.pending ∧ (checkZone n s i).now = s.now ∧ (checkZone n s i).resetPhase = s.resetPhase
      ∧ (checkZone n s i).due = s.due ∧ (checkZone n s i).draws = s.draws ∧ (checkZone n s i).straps = s.straps
      ∧ (checkZone n s i).eeprom = s.eeprom ∧ (checkZone n s i).loader = s.loader ∧ (checkZone n s i).settings = s.settings
      ∧ (checkZone n s i).input = s.input ∧ (checkZone n s i).buffers = s.buffers ∧ (checkZone n s i).encoder = s.encoder
      ∧ (checkZone n s i).patternSource = s.patternSource ∧ (checkZone n s i).flatLevel = s.flatLevel ∧ (checkZone n s i).life = s.life
      ∧ (checkZone n s i).level = s.level ∧ (checkZone n s i).peers = s.peers ∧ (checkZone n s i).schedule = s.schedule
      ∧ (checkZone n s i).timer = s.timer ∧ (checkZone n s i).photo = s.photo ∧ (checkZone n s i).scan = s.scan
      ∧ (checkZone n s i).converter = s.converter ∧ (checkZone n s i).console = s.console := by
  unfold checkZone
  (repeat' (first | split | (dsimp only; split))) <;> simp

@[simp] theorem shapeAgreement_frame (n : Nat) :
    (shapeAgreement n s).pending = s.pending ∧ (shapeAgreement n s).now = s.now ∧ (shapeAgreement n s).resetPhase = s.resetPhase
      ∧ (shapeAgreement n s).due = s.due ∧ (shapeAgreement n s).draws = s.draws ∧ (shapeAgreement n s).straps = s.straps
      ∧ (shapeAgreement n s).eeprom = s.eeprom ∧ (shapeAgreement n s).loader = s.loader ∧ (shapeAgreement n s).settings = s.settings
      ∧ (shapeAgreement n s).input = s.input ∧ (shapeAgreement n s).buffers = s.buffers ∧ (shapeAgreement n s).encoder = s.encoder
      ∧ (shapeAgreement n s).patternSource = s.patternSource ∧ (shapeAgreement n s).flatLevel = s.flatLevel ∧ (shapeAgreement n s).life = s.life
      ∧ (shapeAgreement n s).level = s.level ∧ (shapeAgreement n s).peers = s.peers ∧ (shapeAgreement n s).schedule = s.schedule
      ∧ (shapeAgreement n s).timer = s.timer ∧ (shapeAgreement n s).photo = s.photo ∧ (shapeAgreement n s).scan = s.scan
      ∧ (shapeAgreement n s).converter = s.converter ∧ (shapeAgreement n s).console = s.console := by
  have h : ∀ (l : List Nat) (t : State), (l.foldl (checkZone n) t).pending = t.pending ∧ (l.foldl (checkZone n) t).now = t.now ∧ (l.foldl (checkZone n) t).resetPhase = t.resetPhase
      ∧ (l.foldl (checkZone n) t).due = t.due ∧ (l.foldl (checkZone n) t).draws = t.draws ∧ (l.foldl (checkZone n) t).straps = t.straps
      ∧ (l.foldl (checkZone n) t).eeprom = t.eeprom ∧ (l.foldl (checkZone n) t).loader = t.loader ∧ (l.foldl (checkZone n) t).settings = t.settings
      ∧ (l.foldl (checkZone n) t).input = t.input ∧ (l.foldl (checkZone n) t).buffers = t.buffers ∧ (l.foldl (checkZone n) t).encoder = t.encoder
      ∧ (l.foldl (checkZone n) t).patternSource = t.patternSource ∧ (l.foldl (checkZone n) t).flatLevel = t.flatLevel ∧ (l.foldl (checkZone n) t).life = t.life
      ∧ (l.foldl (checkZone n) t).level = t.level ∧ (l.foldl (checkZone n) t).peers = t.peers ∧ (l.foldl (checkZone n) t).schedule = t.schedule
      ∧ (l.foldl (checkZone n) t).timer = t.timer ∧ (l.foldl (checkZone n) t).photo = t.photo
      ∧ (l.foldl (checkZone n) t).scan = t.scan ∧ (l.foldl (checkZone n) t).converter = t.converter ∧ (l.foldl (checkZone n) t).console = t.console := by
    intro l
    induction l with
    | nil => intro t; simp
    | cons i l ih => intro t; simpa using ih (checkZone n t i)
  exact h _ _

/-! ### Machine/LevelControl.lean -/

@[simp] theorem recomputeTarget_frame :
    (recomputeTarget s).pending = s.pending ∧ (recomputeTarget s).now = s.now ∧ (recomputeTarget s).resetPhase = s.resetPhase
      ∧ (recomputeTarget s).due = s.due ∧ (recomputeTarget s).draws = s.draws ∧ (recomputeTarget s).straps = s.straps
      ∧ (recomputeTarget s).eeprom = s.eeprom ∧ (recomputeTarget s).loader = s.loader ∧ (recomputeTarget s).settings = s.settings
      ∧ (recomputeTarget s).input = s.input ∧ (recomputeTarget s).buffers = s.buffers ∧ (recomputeTarget s).encoder = s.encoder
      ∧ (recomputeTarget s).patternSource = s.patternSource ∧ (recomputeTarget s).flatLevel = s.flatLevel ∧ (recomputeTarget s).zones = s.zones
      ∧ (recomputeTarget s).life = s.life ∧ (recomputeTarget s).peers = s.peers ∧ (recomputeTarget s).schedule = s.schedule
      ∧ (recomputeTarget s).bus = s.bus ∧ (recomputeTarget s).timer = s.timer ∧ (recomputeTarget s).photo = s.photo
      ∧ (recomputeTarget s).scan = s.scan ∧ (recomputeTarget s).converter = s.converter ∧ (recomputeTarget s).console = s.console
      ∧ (recomputeTarget s).faults = s.faults := by
  simp [recomputeTarget]

@[simp] theorem setCapacity_frame (c : Nat) :
    (setCapacity c s).pending = s.pending ∧ (setCapacity c s).now = s.now ∧ (setCapacity c s).resetPhase = s.resetPhase
      ∧ (setCapacity c s).due = s.due ∧ (setCapacity c s).draws = s.draws ∧ (setCapacity c s).straps = s.straps
      ∧ (setCapacity c s).eeprom = s.eeprom ∧ (setCapacity c s).loader = s.loader ∧ (setCapacity c s).settings = s.settings
      ∧ (setCapacity c s).input = s.input ∧ (setCapacity c s).buffers = s.buffers ∧ (setCapacity c s).encoder = s.encoder
      ∧ (setCapacity c s).patternSource = s.patternSource ∧ (setCapacity c s).flatLevel = s.flatLevel ∧ (setCapacity c s).zones = s.zones
      ∧ (setCapacity c s).life = s.life ∧ (setCapacity c s).peers = s.peers ∧ (setCapacity c s).schedule = s.schedule
      ∧ (setCapacity c s).timer = s.timer ∧ (setCapacity c s).photo = s.photo ∧ (setCapacity c s).scan = s.scan
      ∧ (setCapacity c s).converter = s.converter ∧ (setCapacity c s).console = s.console ∧ (setCapacity c s).faults = s.faults := by
  unfold setCapacity
  (repeat' split) <;> simp

@[simp] theorem offerCapacity_frame (c : Nat) :
    (offerCapacity c s).pending = s.pending ∧ (offerCapacity c s).now = s.now ∧ (offerCapacity c s).resetPhase = s.resetPhase
      ∧ (offerCapacity c s).due = s.due ∧ (offerCapacity c s).draws = s.draws ∧ (offerCapacity c s).straps = s.straps
      ∧ (offerCapacity c s).eeprom = s.eeprom ∧ (offerCapacity c s).loader = s.loader ∧ (offerCapacity c s).settings = s.settings
      ∧ (offerCapacity c s).input = s.input ∧ (offerCapacity c s).buffers = s.buffers ∧ (offerCapacity c s).encoder = s.encoder
      ∧ (offerCapacity c s).patternSource = s.patternSource ∧ (offerCapacity c s).flatLevel = s.flatLevel ∧ (offerCapacity c s).zones = s.zones
      ∧ (offerCapacity c s).life = s.life ∧ (offerCapacity c s).peers = s.peers ∧ (offerCapacity c s).schedule = s.schedule
      ∧ (offerCapacity c s).timer = s.timer ∧ (offerCapacity c s).photo = s.photo ∧ (offerCapacity c s).scan = s.scan
      ∧ (offerCapacity c s).converter = s.converter ∧ (offerCapacity c s).console = s.console ∧ (offerCapacity c s).faults = s.faults := by
  unfold offerCapacity
  (repeat' split) <;> simp

@[simp] theorem levelAtMark_frame :
    (levelAtMark s).pending = s.pending ∧ (levelAtMark s).now = s.now ∧ (levelAtMark s).resetPhase = s.resetPhase
      ∧ (levelAtMark s).due = s.due ∧ (levelAtMark s).draws = s.draws ∧ (levelAtMark s).straps = s.straps
      ∧ (levelAtMark s).eeprom = s.eeprom ∧ (levelAtMark s).loader = s.loader ∧ (levelAtMark s).settings = s.settings
      ∧ (levelAtMark s).input = s.input ∧ (levelAtMark s).buffers = s.buffers ∧ (levelAtMark s).encoder = s.encoder
      ∧ (levelAtMark s).patternSource = s.patternSource ∧ (levelAtMark s).flatLevel = s.flatLevel ∧ (levelAtMark s).zones = s.zones
      ∧ (levelAtMark s).life = s.life ∧ (levelAtMark s).peers = s.peers ∧ (levelAtMark s).schedule = s.schedule
      ∧ (levelAtMark s).bus = s.bus ∧ (levelAtMark s).timer = s.timer ∧ (levelAtMark s).photo = s.photo
      ∧ (levelAtMark s).scan = s.scan ∧ (levelAtMark s).converter = s.converter ∧ (levelAtMark s).console = s.console
      ∧ (levelAtMark s).faults = s.faults := by
  simp [levelAtMark]

@[simp] theorem replaceLevel_frame (r : LevelRecord) :
    (replaceLevel r s).pending = s.pending ∧ (replaceLevel r s).now = s.now ∧ (replaceLevel r s).resetPhase = s.resetPhase
      ∧ (replaceLevel r s).due = s.due ∧ (replaceLevel r s).draws = s.draws ∧ (replaceLevel r s).straps = s.straps
      ∧ (replaceLevel r s).eeprom = s.eeprom ∧ (replaceLevel r s).loader = s.loader ∧ (replaceLevel r s).settings = s.settings
      ∧ (replaceLevel r s).input = s.input ∧ (replaceLevel r s).buffers = s.buffers ∧ (replaceLevel r s).encoder = s.encoder
      ∧ (replaceLevel r s).patternSource = s.patternSource ∧ (replaceLevel r s).flatLevel = s.flatLevel ∧ (replaceLevel r s).zones = s.zones
      ∧ (replaceLevel r s).life = s.life ∧ (replaceLevel r s).peers = s.peers ∧ (replaceLevel r s).schedule = s.schedule
      ∧ (replaceLevel r s).timer = s.timer ∧ (replaceLevel r s).photo = s.photo ∧ (replaceLevel r s).scan = s.scan
      ∧ (replaceLevel r s).converter = s.converter ∧ (replaceLevel r s).console = s.console ∧ (replaceLevel r s).faults = s.faults := by
  simp [replaceLevel]

@[simp] theorem offerLevel_frame (r : LevelRecord) :
    (offerLevel r s).pending = s.pending ∧ (offerLevel r s).now = s.now ∧ (offerLevel r s).resetPhase = s.resetPhase
      ∧ (offerLevel r s).due = s.due ∧ (offerLevel r s).draws = s.draws ∧ (offerLevel r s).straps = s.straps
      ∧ (offerLevel r s).eeprom = s.eeprom ∧ (offerLevel r s).loader = s.loader ∧ (offerLevel r s).settings = s.settings
      ∧ (offerLevel r s).input = s.input ∧ (offerLevel r s).buffers = s.buffers ∧ (offerLevel r s).encoder = s.encoder
      ∧ (offerLevel r s).patternSource = s.patternSource ∧ (offerLevel r s).flatLevel = s.flatLevel ∧ (offerLevel r s).zones = s.zones
      ∧ (offerLevel r s).life = s.life ∧ (offerLevel r s).peers = s.peers ∧ (offerLevel r s).schedule = s.schedule
      ∧ (offerLevel r s).timer = s.timer ∧ (offerLevel r s).photo = s.photo ∧ (offerLevel r s).scan = s.scan
      ∧ (offerLevel r s).converter = s.converter ∧ (offerLevel r s).console = s.console ∧ (offerLevel r s).faults = s.faults := by
  unfold offerLevel
  (repeat' split) <;> simp

/-! ### Machine/Lifecycle.lean -/

@[simp] theorem changeState_frame (st : StationState) :
    (changeState st s).pending = s.pending ∧ (changeState st s).now = s.now ∧ (changeState st s).resetPhase = s.resetPhase
      ∧ (changeState st s).due = s.due ∧ (changeState st s).draws = s.draws ∧ (changeState st s).straps = s.straps
      ∧ (changeState st s).eeprom = s.eeprom ∧ (changeState st s).loader = s.loader ∧ (changeState st s).settings = s.settings
      ∧ (changeState st s).input = s.input ∧ (changeState st s).buffers = s.buffers ∧ (changeState st s).encoder = s.encoder
      ∧ (changeState st s).patternSource = s.patternSource ∧ (changeState st s).flatLevel = s.flatLevel ∧ (changeState st s).zones = s.zones
      ∧ (changeState st s).peers = s.peers ∧ (changeState st s).schedule = s.schedule ∧ (changeState st s).timer = s.timer
      ∧ (changeState st s).photo = s.photo ∧ (changeState st s).scan = s.scan ∧ (changeState st s).converter = s.converter
      ∧ (changeState st s).console = s.console ∧ (changeState st s).faults = s.faults := by
  simp [changeState]

@[simp] theorem enterJoining_frame (r : Reason) :
    (enterJoining r s).pending = s.pending ∧ (enterJoining r s).now = s.now ∧ (enterJoining r s).resetPhase = s.resetPhase
      ∧ (enterJoining r s).due = s.due ∧ (enterJoining r s).draws = s.draws ∧ (enterJoining r s).straps = s.straps
      ∧ (enterJoining r s).eeprom = s.eeprom ∧ (enterJoining r s).loader = s.loader ∧ (enterJoining r s).settings = s.settings
      ∧ (enterJoining r s).input = s.input ∧ (enterJoining r s).buffers = s.buffers ∧ (enterJoining r s).encoder = s.encoder
      ∧ (enterJoining r s).patternSource = s.patternSource ∧ (enterJoining r s).flatLevel = s.flatLevel ∧ (enterJoining r s).peers = s.peers
      ∧ (enterJoining r s).schedule = s.schedule ∧ (enterJoining r s).timer = s.timer ∧ (enterJoining r s).photo = s.photo
      ∧ (enterJoining r s).scan = s.scan ∧ (enterJoining r s).converter = s.converter ∧ (enterJoining r s).console = s.console
      ∧ (enterJoining r s).faults = s.faults := by
  simp [enterJoining]

@[simp] theorem enterLeaving_frame (r : Reason) :
    (enterLeaving r s).pending = s.pending ∧ (enterLeaving r s).now = s.now ∧ (enterLeaving r s).resetPhase = s.resetPhase
      ∧ (enterLeaving r s).due = s.due ∧ (enterLeaving r s).draws = s.draws ∧ (enterLeaving r s).straps = s.straps
      ∧ (enterLeaving r s).eeprom = s.eeprom ∧ (enterLeaving r s).loader = s.loader ∧ (enterLeaving r s).settings = s.settings
      ∧ (enterLeaving r s).input = s.input ∧ (enterLeaving r s).buffers = s.buffers ∧ (enterLeaving r s).encoder = s.encoder
      ∧ (enterLeaving r s).patternSource = s.patternSource ∧ (enterLeaving r s).flatLevel = s.flatLevel ∧ (enterLeaving r s).zones = s.zones
      ∧ (enterLeaving r s).peers = s.peers ∧ (enterLeaving r s).schedule = s.schedule ∧ (enterLeaving r s).timer = s.timer
      ∧ (enterLeaving r s).photo = s.photo ∧ (enterLeaving r s).scan = s.scan ∧ (enterLeaving r s).converter = s.converter
      ∧ (enterLeaving r s).console = s.console ∧ (enterLeaving r s).faults = s.faults := by
  simp [enterLeaving]

@[simp] theorem startScan_frame :
    (startScan s).pending = s.pending ∧ (startScan s).now = s.now ∧ (startScan s).resetPhase = s.resetPhase
      ∧ (startScan s).due = s.due ∧ (startScan s).draws = s.draws ∧ (startScan s).straps = s.straps
      ∧ (startScan s).eeprom = s.eeprom ∧ (startScan s).loader = s.loader ∧ (startScan s).settings = s.settings
      ∧ (startScan s).input = s.input ∧ (startScan s).buffers = s.buffers ∧ (startScan s).encoder = s.encoder
      ∧ (startScan s).patternSource = s.patternSource ∧ (startScan s).flatLevel = s.flatLevel ∧ (startScan s).zones = s.zones
      ∧ (startScan s).life = s.life ∧ (startScan s).level = s.level ∧ (startScan s).peers = s.peers
      ∧ (startScan s).schedule = s.schedule ∧ (startScan s).bus = s.bus ∧ (startScan s).timer = s.timer
      ∧ (startScan s).photo = s.photo ∧ (startScan s).converter = s.converter ∧ (startScan s).console = s.console
      ∧ (startScan s).faults = s.faults := by
  simp [startScan]

@[simp] theorem enterListen_frame :
    (enterListen s).pending = s.pending ∧ (enterListen s).now = s.now ∧ (enterListen s).resetPhase = s.resetPhase
      ∧ (enterListen s).due = s.due ∧ (enterListen s).draws = s.draws ∧ (enterListen s).straps = s.straps
      ∧ (enterListen s).eeprom = s.eeprom ∧ (enterListen s).loader = s.loader ∧ (enterListen s).settings = s.settings
      ∧ (enterListen s).input = s.input ∧ (enterListen s).buffers = s.buffers ∧ (enterListen s).encoder = s.encoder
      ∧ (enterListen s).patternSource = s.patternSource ∧ (enterListen s).flatLevel = s.flatLevel ∧ (enterListen s).zones = s.zones
      ∧ (enterListen s).peers = s.peers ∧ (enterListen s).timer = s.timer ∧ (enterListen s).photo = s.photo
      ∧ (enterListen s).scan = s.scan ∧ (enterListen s).converter = s.converter ∧ (enterListen s).console = s.console
      ∧ (enterListen s).faults = s.faults := by
  unfold enterListen
  simp

@[simp] theorem enterService_frame :
    (enterService s).pending = s.pending ∧ (enterService s).now = s.now ∧ (enterService s).resetPhase = s.resetPhase
      ∧ (enterService s).due = s.due ∧ (enterService s).draws = s.draws ∧ (enterService s).straps = s.straps
      ∧ (enterService s).eeprom = s.eeprom ∧ (enterService s).loader = s.loader ∧ (enterService s).settings = s.settings
      ∧ (enterService s).input = s.input ∧ (enterService s).buffers = s.buffers ∧ (enterService s).encoder = s.encoder
      ∧ (enterService s).patternSource = s.patternSource ∧ (enterService s).flatLevel = s.flatLevel ∧ (enterService s).zones = s.zones
      ∧ (enterService s).peers = s.peers ∧ (enterService s).timer = s.timer ∧ (enterService s).photo = s.photo
      ∧ (enterService s).scan = s.scan ∧ (enterService s).converter = s.converter ∧ (enterService s).console = s.console
      ∧ (enterService s).faults = s.faults := by
  simp [enterService]

@[simp] theorem enterDark_frame :
    (enterDark s).pending = s.pending ∧ (enterDark s).now = s.now ∧ (enterDark s).resetPhase = s.resetPhase
      ∧ (enterDark s).due = s.due ∧ (enterDark s).draws = s.draws ∧ (enterDark s).straps = s.straps
      ∧ (enterDark s).eeprom = s.eeprom ∧ (enterDark s).loader = s.loader ∧ (enterDark s).settings = s.settings
      ∧ (enterDark s).input = s.input ∧ (enterDark s).buffers = s.buffers ∧ (enterDark s).encoder = s.encoder
      ∧ (enterDark s).patternSource = s.patternSource ∧ (enterDark s).flatLevel = s.flatLevel ∧ (enterDark s).peers = s.peers
      ∧ (enterDark s).schedule = s.schedule ∧ (enterDark s).timer = s.timer ∧ (enterDark s).photo = s.photo
      ∧ (enterDark s).scan = s.scan ∧ (enterDark s).converter = s.converter ∧ (enterDark s).console = s.console
      ∧ (enterDark s).faults = s.faults := by
  simp [enterDark]

@[simp] theorem enterSleep_frame :
    (enterSleep s).pending = s.pending ∧ (enterSleep s).now = s.now ∧ (enterSleep s).resetPhase = s.resetPhase
      ∧ (enterSleep s).due = s.due ∧ (enterSleep s).draws = s.draws ∧ (enterSleep s).straps = s.straps
      ∧ (enterSleep s).eeprom = s.eeprom ∧ (enterSleep s).loader = s.loader ∧ (enterSleep s).settings = s.settings
      ∧ (enterSleep s).input = s.input ∧ (enterSleep s).buffers = s.buffers ∧ (enterSleep s).encoder = s.encoder
      ∧ (enterSleep s).patternSource = s.patternSource ∧ (enterSleep s).flatLevel = s.flatLevel ∧ (enterSleep s).peers = s.peers
      ∧ (enterSleep s).timer = s.timer ∧ (enterSleep s).photo = s.photo ∧ (enterSleep s).converter = s.converter
      ∧ (enterSleep s).console = s.console ∧ (enterSleep s).faults = s.faults := by
  simp [enterSleep]

@[simp] theorem enterLit_frame :
    (enterLit s).pending = s.pending ∧ (enterLit s).now = s.now ∧ (enterLit s).resetPhase = s.resetPhase
      ∧ (enterLit s).due = s.due ∧ (enterLit s).draws = s.draws ∧ (enterLit s).straps = s.straps
      ∧ (enterLit s).eeprom = s.eeprom ∧ (enterLit s).loader = s.loader ∧ (enterLit s).settings = s.settings
      ∧ (enterLit s).input = s.input ∧ (enterLit s).buffers = s.buffers ∧ (enterLit s).encoder = s.encoder
      ∧ (enterLit s).patternSource = s.patternSource ∧ (enterLit s).flatLevel = s.flatLevel ∧ (enterLit s).zones = s.zones
      ∧ (enterLit s).peers = s.peers ∧ (enterLit s).schedule = s.schedule ∧ (enterLit s).timer = s.timer
      ∧ (enterLit s).photo = s.photo ∧ (enterLit s).scan = s.scan ∧ (enterLit s).converter = s.converter
      ∧ (enterLit s).console = s.console ∧ (enterLit s).faults = s.faults := by
  simp [enterLit]

@[simp] theorem endLeave_frame :
    (endLeave s).pending = s.pending ∧ (endLeave s).now = s.now ∧ (endLeave s).resetPhase = s.resetPhase
      ∧ (endLeave s).due = s.due ∧ (endLeave s).draws = s.draws ∧ (endLeave s).straps = s.straps
      ∧ (endLeave s).eeprom = s.eeprom ∧ (endLeave s).loader = s.loader ∧ (endLeave s).settings = s.settings
      ∧ (endLeave s).input = s.input ∧ (endLeave s).buffers = s.buffers ∧ (endLeave s).encoder = s.encoder
      ∧ (endLeave s).patternSource = s.patternSource ∧ (endLeave s).flatLevel = s.flatLevel ∧ (endLeave s).peers = s.peers
      ∧ (endLeave s).timer = s.timer ∧ (endLeave s).photo = s.photo ∧ (endLeave s).converter = s.converter
      ∧ (endLeave s).console = s.console ∧ (endLeave s).faults = s.faults := by
  unfold endLeave
  (repeat' split) <;> simp

@[simp] theorem causeAppears_frame (c : Cause) :
    (causeAppears c s).pending = s.pending ∧ (causeAppears c s).now = s.now ∧ (causeAppears c s).resetPhase = s.resetPhase
      ∧ (causeAppears c s).due = s.due ∧ (causeAppears c s).draws = s.draws ∧ (causeAppears c s).straps = s.straps
      ∧ (causeAppears c s).eeprom = s.eeprom ∧ (causeAppears c s).loader = s.loader ∧ (causeAppears c s).settings = s.settings
      ∧ (causeAppears c s).input = s.input ∧ (causeAppears c s).buffers = s.buffers ∧ (causeAppears c s).encoder = s.encoder
      ∧ (causeAppears c s).patternSource = s.patternSource ∧ (causeAppears c s).flatLevel = s.flatLevel ∧ (causeAppears c s).zones = s.zones
      ∧ (causeAppears c s).peers = s.peers ∧ (causeAppears c s).schedule = s.schedule ∧ (causeAppears c s).timer = s.timer
      ∧ (causeAppears c s).photo = s.photo ∧ (causeAppears c s).scan = s.scan ∧ (causeAppears c s).converter = s.converter
      ∧ (causeAppears c s).console = s.console ∧ (causeAppears c s).faults = s.faults := by
  unfold causeAppears
  (repeat' (first | split | (dsimp only; split))) <;> simp

@[simp] theorem causeClears_frame (c : Cause) :
    (causeClears c s).pending = s.pending ∧ (causeClears c s).now = s.now ∧ (causeClears c s).resetPhase = s.resetPhase
      ∧ (causeClears c s).due = s.due ∧ (causeClears c s).draws = s.draws ∧ (causeClears c s).straps = s.straps
      ∧ (causeClears c s).eeprom = s.eeprom ∧ (causeClears c s).loader = s.loader ∧ (causeClears c s).settings = s.settings
      ∧ (causeClears c s).input = s.input ∧ (causeClears c s).buffers = s.buffers ∧ (causeClears c s).encoder = s.encoder
      ∧ (causeClears c s).patternSource = s.patternSource ∧ (causeClears c s).flatLevel = s.flatLevel ∧ (causeClears c s).zones = s.zones
      ∧ (causeClears c s).level = s.level ∧ (causeClears c s).peers = s.peers ∧ (causeClears c s).schedule = s.schedule
      ∧ (causeClears c s).bus = s.bus ∧ (causeClears c s).timer = s.timer ∧ (causeClears c s).photo = s.photo
      ∧ (causeClears c s).scan = s.scan ∧ (causeClears c s).converter = s.converter ∧ (causeClears c s).console = s.console
      ∧ (causeClears c s).faults = s.faults := by
  simp [causeClears]

@[simp] theorem setHoldDark_frame :
    (setHoldDark s).pending = s.pending ∧ (setHoldDark s).now = s.now ∧ (setHoldDark s).resetPhase = s.resetPhase
      ∧ (setHoldDark s).due = s.due ∧ (setHoldDark s).draws = s.draws ∧ (setHoldDark s).straps = s.straps
      ∧ (setHoldDark s).eeprom = s.eeprom ∧ (setHoldDark s).loader = s.loader ∧ (setHoldDark s).settings = s.settings
      ∧ (setHoldDark s).input = s.input ∧ (setHoldDark s).buffers = s.buffers ∧ (setHoldDark s).encoder = s.encoder
      ∧ (setHoldDark s).patternSource = s.patternSource ∧ (setHoldDark s).flatLevel = s.flatLevel ∧ (setHoldDark s).zones = s.zones
      ∧ (setHoldDark s).peers = s.peers ∧ (setHoldDark s).schedule = s.schedule ∧ (setHoldDark s).timer = s.timer
      ∧ (setHoldDark s).photo = s.photo ∧ (setHoldDark s).scan = s.scan ∧ (setHoldDark s).converter = s.converter
      ∧ (setHoldDark s).console = s.console ∧ (setHoldDark s).faults = s.faults := by
  unfold setHoldDark
  simp

@[simp] theorem clearHoldDark_frame :
    (clearHoldDark s).pending = s.pending ∧ (clearHoldDark s).now = s.now ∧ (clearHoldDark s).resetPhase = s.resetPhase
      ∧ (clearHoldDark s).due = s.due ∧ (clearHoldDark s).draws = s.draws ∧ (clearHoldDark s).straps = s.straps
      ∧ (clearHoldDark s).eeprom = s.eeprom ∧ (clearHoldDark s).loader = s.loader ∧ (clearHoldDark s).settings = s.settings
      ∧ (clearHoldDark s).input = s.input ∧ (clearHoldDark s).buffers = s.buffers ∧ (clearHoldDark s).encoder = s.encoder
      ∧ (clearHoldDark s).patternSource = s.patternSource ∧ (clearHoldDark s).flatLevel = s.flatLevel ∧ (clearHoldDark s).zones = s.zones
      ∧ (clearHoldDark s).level = s.level ∧ (clearHoldDark s).peers = s.peers ∧ (clearHoldDark s).schedule = s.schedule
      ∧ (clearHoldDark s).bus = s.bus ∧ (clearHoldDark s).timer = s.timer ∧ (clearHoldDark s).photo = s.photo
      ∧ (clearHoldDark s).scan = s.scan ∧ (clearHoldDark s).converter = s.converter ∧ (clearHoldDark s).console = s.console
      ∧ (clearHoldDark s).faults = s.faults := by
  simp [clearHoldDark]

@[simp] theorem sleepOrdered_frame :
    (sleepOrdered s).pending = s.pending ∧ (sleepOrdered s).now = s.now ∧ (sleepOrdered s).resetPhase = s.resetPhase
      ∧ (sleepOrdered s).due = s.due ∧ (sleepOrdered s).draws = s.draws ∧ (sleepOrdered s).straps = s.straps
      ∧ (sleepOrdered s).eeprom = s.eeprom ∧ (sleepOrdered s).loader = s.loader ∧ (sleepOrdered s).settings = s.settings
      ∧ (sleepOrdered s).input = s.input ∧ (sleepOrdered s).buffers = s.buffers ∧ (sleepOrdered s).encoder = s.encoder
      ∧ (sleepOrdered s).patternSource = s.patternSource ∧ (sleepOrdered s).flatLevel = s.flatLevel ∧ (sleepOrdered s).peers = s.peers
      ∧ (sleepOrdered s).timer = s.timer ∧ (sleepOrdered s).photo = s.photo ∧ (sleepOrdered s).converter = s.converter
      ∧ (sleepOrdered s).console = s.console ∧ (sleepOrdered s).faults = s.faults := by
  unfold sleepOrdered
  (repeat' split) <;> simp

@[simp] theorem lifeAtMark_frame :
    (lifeAtMark s).pending = s.pending ∧ (lifeAtMark s).now = s.now ∧ (lifeAtMark s).resetPhase = s.resetPhase
      ∧ (lifeAtMark s).due = s.due ∧ (lifeAtMark s).draws = s.draws ∧ (lifeAtMark s).straps = s.straps
      ∧ (lifeAtMark s).eeprom = s.eeprom ∧ (lifeAtMark s).loader = s.loader ∧ (lifeAtMark s).settings = s.settings
      ∧ (lifeAtMark s).input = s.input ∧ (lifeAtMark s).buffers = s.buffers ∧ (lifeAtMark s).encoder = s.encoder
      ∧ (lifeAtMark s).patternSource = s.patternSource ∧ (lifeAtMark s).flatLevel = s.flatLevel ∧ (lifeAtMark s).peers = s.peers
      ∧ (lifeAtMark s).timer = s.timer ∧ (lifeAtMark s).photo = s.photo ∧ (lifeAtMark s).converter = s.converter
      ∧ (lifeAtMark s).console = s.console ∧ (lifeAtMark s).faults = s.faults := by
  unfold lifeAtMark
  (repeat' (first | split | (dsimp only; split))) <;> simp

@[simp] theorem endListen_frame :
    (endListen s).pending = s.pending ∧ (endListen s).now = s.now ∧ (endListen s).resetPhase = s.resetPhase
      ∧ (endListen s).due = s.due ∧ (endListen s).draws = s.draws ∧ (endListen s).straps = s.straps
      ∧ (endListen s).eeprom = s.eeprom ∧ (endListen s).loader = s.loader ∧ (endListen s).settings = s.settings
      ∧ (endListen s).input = s.input ∧ (endListen s).buffers = s.buffers ∧ (endListen s).encoder = s.encoder
      ∧ (endListen s).patternSource = s.patternSource ∧ (endListen s).flatLevel = s.flatLevel ∧ (endListen s).peers = s.peers
      ∧ (endListen s).schedule = s.schedule ∧ (endListen s).photo = s.photo ∧ (endListen s).scan = s.scan
      ∧ (endListen s).converter = s.converter ∧ (endListen s).console = s.console ∧ (endListen s).faults = s.faults := by
  unfold endListen
  (repeat' (first | split | (dsimp only; split))) <;> simp

/-! ### Machine/Peers.lean -/

@[simp] theorem offerFrame_frame (f : FrameNo) (b : Bool) :
    (offerFrame f b s).pending = s.pending ∧ (offerFrame f b s).now = s.now ∧ (offerFrame f b s).resetPhase = s.resetPhase
      ∧ (offerFrame f b s).due = s.due ∧ (offerFrame f b s).draws = s.draws ∧ (offerFrame f b s).straps = s.straps
      ∧ (offerFrame f b s).eeprom = s.eeprom ∧ (offerFrame f b s).loader = s.loader ∧ (offerFrame f b s).settings = s.settings
      ∧ (offerFrame f b s).input = s.input ∧ (offerFrame f b s).buffers = s.buffers ∧ (offerFrame f b s).encoder = s.encoder
      ∧ (offerFrame f b s).patternSource = s.patternSource ∧ (offerFrame f b s).flatLevel = s.flatLevel ∧ (offerFrame f b s).zones = s.zones
      ∧ (offerFrame f b s).life = s.life ∧ (offerFrame f b s).level = s.level ∧ (offerFrame f b s).peers = s.peers
      ∧ (offerFrame f b s).schedule = s.schedule ∧ (offerFrame f b s).bus = s.bus ∧ (offerFrame f b s).photo = s.photo
      ∧ (offerFrame f b s).scan = s.scan ∧ (offerFrame f b s).converter = s.converter ∧ (offerFrame f b s).console = s.console := by
  unfold offerFrame
  (repeat' split) <;> simp

@[simp] theorem State.setPeer_frame (n : Nat) (e : PeerEntry) :
    (s.setPeer n e).pending = s.pending ∧ (s.setPeer n e).now = s.now ∧ (s.setPeer n e).resetPhase = s.resetPhase
      ∧ (s.setPeer n e).due = s.due ∧ (s.setPeer n e).draws = s.draws ∧ (s.setPeer n e).straps = s.straps
      ∧ (s.setPeer n e).eeprom = s.eeprom ∧ (s.setPeer n e).loader = s.loader ∧ (s.setPeer n e).settings = s.settings
      ∧ (s.setPeer n e).input = s.input ∧ (s.setPeer n e).buffers = s.buffers ∧ (s.setPeer n e).encoder = s.encoder
      ∧ (s.setPeer n e).patternSource = s.patternSource ∧ (s.setPeer n e).flatLevel = s.flatLevel ∧ (s.setPeer n e).zones = s.zones
      ∧ (s.setPeer n e).life = s.life ∧ (s.setPeer n e).level = s.level ∧ (s.setPeer n e).schedule = s.schedule
      ∧ (s.setPeer n e).bus = s.bus ∧ (s.setPeer n e).timer = s.timer ∧ (s.setPeer n e).photo = s.photo
      ∧ (s.setPeer n e).scan = s.scan ∧ (s.setPeer n e).converter = s.converter ∧ (s.setPeer n e).console = s.console
      ∧ (s.setPeer n e).faults = s.faults := by
  cases n <;> simp [State.setPeer]

@[simp] theorem popQueue_frame :
    (popQueue s).pending = s.pending ∧ (popQueue s).now = s.now ∧ (popQueue s).resetPhase = s.resetPhase
      ∧ (popQueue s).due = s.due ∧ (popQueue s).draws = s.draws ∧ (popQueue s).straps = s.straps
      ∧ (popQueue s).eeprom = s.eeprom ∧ (popQueue s).loader = s.loader ∧ (popQueue s).settings = s.settings
      ∧ (popQueue s).input = s.input ∧ (popQueue s).buffers = s.buffers ∧ (popQueue s).encoder = s.encoder
      ∧ (popQueue s).patternSource = s.patternSource ∧ (popQueue s).flatLevel = s.flatLevel ∧ (popQueue s).zones = s.zones
      ∧ (popQueue s).life = s.life ∧ (popQueue s).level = s.level ∧ (popQueue s).peers = s.peers
      ∧ (popQueue s).schedule = s.schedule ∧ (popQueue s).timer = s.timer ∧ (popQueue s).photo = s.photo
      ∧ (popQueue s).scan = s.scan ∧ (popQueue s).converter = s.converter ∧ (popQueue s).console = s.console
      ∧ (popQueue s).faults = s.faults := by
  simp [popQueue]

@[simp] theorem peersAtMark_frame :
    (peersAtMark s).pending = s.pending ∧ (peersAtMark s).now = s.now ∧ (peersAtMark s).resetPhase = s.resetPhase
      ∧ (peersAtMark s).due = s.due ∧ (peersAtMark s).draws = s.draws ∧ (peersAtMark s).straps = s.straps
      ∧ (peersAtMark s).eeprom = s.eeprom ∧ (peersAtMark s).loader = s.loader ∧ (peersAtMark s).settings = s.settings
      ∧ (peersAtMark s).input = s.input ∧ (peersAtMark s).buffers = s.buffers ∧ (peersAtMark s).encoder = s.encoder
      ∧ (peersAtMark s).patternSource = s.patternSource ∧ (peersAtMark s).flatLevel = s.flatLevel ∧ (peersAtMark s).zones = s.zones
      ∧ (peersAtMark s).life = s.life ∧ (peersAtMark s).level = s.level ∧ (peersAtMark s).bus = s.bus
      ∧ (peersAtMark s).timer = s.timer ∧ (peersAtMark s).photo = s.photo ∧ (peersAtMark s).scan = s.scan
      ∧ (peersAtMark s).converter = s.converter ∧ (peersAtMark s).console = s.console ∧ (peersAtMark s).faults = s.faults := by
  unfold peersAtMark
  (repeat' (first | split | (dsimp only; split))) <;> simp

@[simp] theorem entryAged_frame (n : Nat) :
    (entryAged n s).pending = s.pending ∧ (entryAged n s).now = s.now ∧ (entryAged n s).resetPhase = s.resetPhase
      ∧ (entryAged n s).due = s.due ∧ (entryAged n s).draws = s.draws ∧ (entryAged n s).straps = s.straps
      ∧ (entryAged n s).eeprom = s.eeprom ∧ (entryAged n s).loader = s.loader ∧ (entryAged n s).settings = s.settings
      ∧ (entryAged n s).input = s.input ∧ (entryAged n s).buffers = s.buffers ∧ (entryAged n s).encoder = s.encoder
      ∧ (entryAged n s).patternSource = s.patternSource ∧ (entryAged n s).flatLevel = s.flatLevel ∧ (entryAged n s).life = s.life
      ∧ (entryAged n s).peers = s.peers ∧ (entryAged n s).schedule = s.schedule ∧ (entryAged n s).bus = s.bus
      ∧ (entryAged n s).timer = s.timer ∧ (entryAged n s).photo = s.photo ∧ (entryAged n s).scan = s.scan
      ∧ (entryAged n s).converter = s.converter ∧ (entryAged n s).console = s.console ∧ (entryAged n s).faults = s.faults := by
  unfold entryAged
  simp

@[simp] theorem losePeer_frame (n : Nat) :
    (losePeer n s).pending = s.pending ∧ (losePeer n s).now = s.now ∧ (losePeer n s).resetPhase = s.resetPhase
      ∧ (losePeer n s).due = s.due ∧ (losePeer n s).draws = s.draws ∧ (losePeer n s).straps = s.straps
      ∧ (losePeer n s).eeprom = s.eeprom ∧ (losePeer n s).loader = s.loader ∧ (losePeer n s).settings = s.settings
      ∧ (losePeer n s).input = s.input ∧ (losePeer n s).buffers = s.buffers ∧ (losePeer n s).encoder = s.encoder
      ∧ (losePeer n s).patternSource = s.patternSource ∧ (losePeer n s).flatLevel = s.flatLevel ∧ (losePeer n s).life = s.life
      ∧ (losePeer n s).schedule = s.schedule ∧ (losePeer n s).bus = s.bus ∧ (losePeer n s).timer = s.timer
      ∧ (losePeer n s).photo = s.photo ∧ (losePeer n s).scan = s.scan ∧ (losePeer n s).converter = s.converter
      ∧ (losePeer n s).console = s.console ∧ (losePeer n s).faults = s.faults := by
  unfold losePeer
  (repeat' split) <;> simp

@[simp] theorem purgePeer_frame (n : Nat) :
    (purgePeer n s).pending = s.pending ∧ (purgePeer n s).now = s.now ∧ (purgePeer n s).resetPhase = s.resetPhase
      ∧ (purgePeer n s).due = s.due ∧ (purgePeer n s).draws = s.draws ∧ (purgePeer n s).straps = s.straps
      ∧ (purgePeer n s).eeprom = s.eeprom ∧ (purgePeer n s).loader = s.loader ∧ (purgePeer n s).settings = s.settings
      ∧ (purgePeer n s).input = s.input ∧ (purgePeer n s).buffers = s.buffers ∧ (purgePeer n s).encoder = s.encoder
      ∧ (purgePeer n s).patternSource = s.patternSource ∧ (purgePeer n s).flatLevel = s.flatLevel ∧ (purgePeer n s).life = s.life
      ∧ (purgePeer n s).schedule = s.schedule ∧ (purgePeer n s).bus = s.bus ∧ (purgePeer n s).timer = s.timer
      ∧ (purgePeer n s).photo = s.photo ∧ (purgePeer n s).scan = s.scan ∧ (purgePeer n s).converter = s.converter
      ∧ (purgePeer n s).console = s.console ∧ (purgePeer n s).faults = s.faults := by
  unfold purgePeer
  (repeat' split) <;> simp

@[simp] theorem announce_frame :
    (announce s).pending = s.pending ∧ (announce s).now = s.now ∧ (announce s).resetPhase = s.resetPhase
      ∧ (announce s).due = s.due ∧ (announce s).draws = s.draws ∧ (announce s).straps = s.straps
      ∧ (announce s).eeprom = s.eeprom ∧ (announce s).loader = s.loader ∧ (announce s).settings = s.settings
      ∧ (announce s).input = s.input ∧ (announce s).buffers = s.buffers ∧ (announce s).encoder = s.encoder
      ∧ (announce s).patternSource = s.patternSource ∧ (announce s).flatLevel = s.flatLevel ∧ (announce s).zones = s.zones
      ∧ (announce s).life = s.life ∧ (announce s).level = s.level ∧ (announce s).peers = s.peers
      ∧ (announce s).timer = s.timer ∧ (announce s).photo = s.photo ∧ (announce s).scan = s.scan
      ∧ (announce s).converter = s.converter ∧ (announce s).console = s.console ∧ (announce s).faults = s.faults := by
  simp [announce]

@[simp] theorem clearPeers_frame :
    (clearPeers s).pending = s.pending ∧ (clearPeers s).now = s.now ∧ (clearPeers s).resetPhase = s.resetPhase
      ∧ (clearPeers s).due = s.due ∧ (clearPeers s).draws = s.draws ∧ (clearPeers s).straps = s.straps
      ∧ (clearPeers s).eeprom = s.eeprom ∧ (clearPeers s).loader = s.loader ∧ (clearPeers s).settings = s.settings
      ∧ (clearPeers s).input = s.input ∧ (clearPeers s).buffers = s.buffers ∧ (clearPeers s).encoder = s.encoder
      ∧ (clearPeers s).patternSource = s.patternSource ∧ (clearPeers s).flatLevel = s.flatLevel ∧ (clearPeers s).zones = s.zones
      ∧ (clearPeers s).life = s.life ∧ (clearPeers s).schedule = s.schedule ∧ (clearPeers s).bus = s.bus
      ∧ (clearPeers s).timer = s.timer ∧ (clearPeers s).photo = s.photo ∧ (clearPeers s).scan = s.scan
      ∧ (clearPeers s).converter = s.converter ∧ (clearPeers s).console = s.console ∧ (clearPeers s).faults = s.faults := by
  simp [clearPeers]

/-! ### Machine/InputPort.lean -/

@[simp] theorem State.setBufferState_frame (i : Nat) (st : BufferState) :
    (s.setBufferState i st).pending = s.pending ∧ (s.setBufferState i st).now = s.now ∧ (s.setBufferState i st).resetPhase = s.resetPhase
      ∧ (s.setBufferState i st).due = s.due ∧ (s.setBufferState i st).draws = s.draws ∧ (s.setBufferState i st).straps = s.straps
      ∧ (s.setBufferState i st).eeprom = s.eeprom ∧ (s.setBufferState i st).loader = s.loader ∧ (s.setBufferState i st).settings = s.settings
      ∧ (s.setBufferState i st).input = s.input ∧ (s.setBufferState i st).encoder = s.encoder ∧ (s.setBufferState i st).patternSource = s.patternSource
      ∧ (s.setBufferState i st).flatLevel = s.flatLevel ∧ (s.setBufferState i st).zones = s.zones ∧ (s.setBufferState i st).life = s.life
      ∧ (s.setBufferState i st).level = s.level ∧ (s.setBufferState i st).peers = s.peers ∧ (s.setBufferState i st).schedule = s.schedule
      ∧ (s.setBufferState i st).bus = s.bus ∧ (s.setBufferState i st).timer = s.timer ∧ (s.setBufferState i st).photo = s.photo
      ∧ (s.setBufferState i st).scan = s.scan ∧ (s.setBufferState i st).converter = s.converter ∧ (s.setBufferState i st).console = s.console
      ∧ (s.setBufferState i st).faults = s.faults := by
  simp [State.setBufferState]

@[simp] theorem State.giveBuffer_frame (i : Nat) (q : FrameNo) :
    (s.giveBuffer i q).pending = s.pending ∧ (s.giveBuffer i q).now = s.now ∧ (s.giveBuffer i q).resetPhase = s.resetPhase
      ∧ (s.giveBuffer i q).due = s.due ∧ (s.giveBuffer i q).draws = s.draws ∧ (s.giveBuffer i q).straps = s.straps
      ∧ (s.giveBuffer i q).eeprom = s.eeprom ∧ (s.giveBuffer i q).loader = s.loader ∧ (s.giveBuffer i q).settings = s.settings
      ∧ (s.giveBuffer i q).encoder = s.encoder ∧ (s.giveBuffer i q).patternSource = s.patternSource ∧ (s.giveBuffer i q).flatLevel = s.flatLevel
      ∧ (s.giveBuffer i q).zones = s.zones ∧ (s.giveBuffer i q).life = s.life ∧ (s.giveBuffer i q).level = s.level
      ∧ (s.giveBuffer i q).peers = s.peers ∧ (s.giveBuffer i q).schedule = s.schedule ∧ (s.giveBuffer i q).bus = s.bus
      ∧ (s.giveBuffer i q).timer = s.timer ∧ (s.giveBuffer i q).photo = s.photo ∧ (s.giveBuffer i q).scan = s.scan
      ∧ (s.giveBuffer i q).converter = s.converter ∧ (s.giveBuffer i q).console = s.console ∧ (s.giveBuffer i q).faults = s.faults := by
  simp [State.giveBuffer]

@[simp] theorem presenterChoice_frame :
    (presenterChoice s).pending = s.pending ∧ (presenterChoice s).now = s.now ∧ (presenterChoice s).resetPhase = s.resetPhase
      ∧ (presenterChoice s).due = s.due ∧ (presenterChoice s).draws = s.draws ∧ (presenterChoice s).straps = s.straps
      ∧ (presenterChoice s).eeprom = s.eeprom ∧ (presenterChoice s).loader = s.loader ∧ (presenterChoice s).settings = s.settings
      ∧ (presenterChoice s).input = s.input ∧ (presenterChoice s).encoder = s.encoder ∧ (presenterChoice s).patternSource = s.patternSource
      ∧ (presenterChoice s).flatLevel = s.flatLevel ∧ (presenterChoice s).zones = s.zones ∧ (presenterChoice s).life = s.life
      ∧ (presenterChoice s).level = s.level ∧ (presenterChoice s).peers = s.peers ∧ (presenterChoice s).schedule = s.schedule
      ∧ (presenterChoice s).bus = s.bus ∧ (presenterChoice s).timer = s.timer ∧ (presenterChoice s).photo = s.photo
      ∧ (presenterChoice s).scan = s.scan ∧ (presenterChoice s).converter = s.converter ∧ (presenterChoice s).console = s.console := by
  unfold presenterChoice
  (repeat' split) <;> simp

@[simp] theorem takeFrameStart_frame :
    (takeFrameStart s).pending = s.pending ∧ (takeFrameStart s).now = s.now ∧ (takeFrameStart s).resetPhase = s.resetPhase
      ∧ (takeFrameStart s).due = s.due ∧ (takeFrameStart s).draws = s.draws ∧ (takeFrameStart s).straps = s.straps
      ∧ (takeFrameStart s).eeprom = s.eeprom ∧ (takeFrameStart s).loader = s.loader ∧ (takeFrameStart s).settings = s.settings
      ∧ (takeFrameStart s).encoder = s.encoder ∧ (takeFrameStart s).patternSource = s.patternSource ∧ (takeFrameStart s).flatLevel = s.flatLevel
      ∧ (takeFrameStart s).zones = s.zones ∧ (takeFrameStart s).life = s.life ∧ (takeFrameStart s).level = s.level
      ∧ (takeFrameStart s).peers = s.peers ∧ (takeFrameStart s).schedule = s.schedule ∧ (takeFrameStart s).bus = s.bus
      ∧ (takeFrameStart s).timer = s.timer ∧ (takeFrameStart s).photo = s.photo ∧ (takeFrameStart s).scan = s.scan
      ∧ (takeFrameStart s).converter = s.converter ∧ (takeFrameStart s).console = s.console := by
  unfold takeFrameStart
  (repeat' (first | split | (dsimp only; split))) <;> simp

@[simp] theorem takeLine_frame (ps : List Pixel) :
    (takeLine ps s).pending = s.pending ∧ (takeLine ps s).now = s.now ∧ (takeLine ps s).resetPhase = s.resetPhase
      ∧ (takeLine ps s).due = s.due ∧ (takeLine ps s).draws = s.draws ∧ (takeLine ps s).straps = s.straps
      ∧ (takeLine ps s).eeprom = s.eeprom ∧ (takeLine ps s).loader = s.loader ∧ (takeLine ps s).settings = s.settings
      ∧ (takeLine ps s).encoder = s.encoder ∧ (takeLine ps s).patternSource = s.patternSource ∧ (takeLine ps s).flatLevel = s.flatLevel
      ∧ (takeLine ps s).zones = s.zones ∧ (takeLine ps s).life = s.life ∧ (takeLine ps s).level = s.level
      ∧ (takeLine ps s).peers = s.peers ∧ (takeLine ps s).schedule = s.schedule ∧ (takeLine ps s).bus = s.bus
      ∧ (takeLine ps s).timer = s.timer ∧ (takeLine ps s).photo = s.photo ∧ (takeLine ps s).scan = s.scan
      ∧ (takeLine ps s).converter = s.converter ∧ (takeLine ps s).console = s.console ∧ (takeLine ps s).faults = s.faults := by
  unfold takeLine
  (repeat' (first | split | (dsimp only; split))) <;> simp

@[simp] theorem truncateFrame_frame :
    (truncateFrame s).pending = s.pending ∧ (truncateFrame s).now = s.now ∧ (truncateFrame s).resetPhase = s.resetPhase
      ∧ (truncateFrame s).due = s.due ∧ (truncateFrame s).draws = s.draws ∧ (truncateFrame s).straps = s.straps
      ∧ (truncateFrame s).eeprom = s.eeprom ∧ (truncateFrame s).loader = s.loader ∧ (truncateFrame s).settings = s.settings
      ∧ (truncateFrame s).encoder = s.encoder ∧ (truncateFrame s).patternSource = s.patternSource ∧ (truncateFrame s).flatLevel = s.flatLevel
      ∧ (truncateFrame s).zones = s.zones ∧ (truncateFrame s).life = s.life ∧ (truncateFrame s).level = s.level
      ∧ (truncateFrame s).peers = s.peers ∧ (truncateFrame s).schedule = s.schedule ∧ (truncateFrame s).bus = s.bus
      ∧ (truncateFrame s).timer = s.timer ∧ (truncateFrame s).photo = s.photo ∧ (truncateFrame s).scan = s.scan
      ∧ (truncateFrame s).converter = s.converter ∧ (truncateFrame s).console = s.console := by
  unfold truncateFrame
  (repeat' split) <;> simp

@[simp] theorem completeFrame_frame (fr : InputFrame) :
    (completeFrame fr s).pending = s.pending ∧ (completeFrame fr s).now = s.now ∧ (completeFrame fr s).resetPhase = s.resetPhase
      ∧ (completeFrame fr s).due = s.due ∧ (completeFrame fr s).draws = s.draws ∧ (completeFrame fr s).straps = s.straps
      ∧ (completeFrame fr s).eeprom = s.eeprom ∧ (completeFrame fr s).loader = s.loader ∧ (completeFrame fr s).settings = s.settings
      ∧ (completeFrame fr s).encoder = s.encoder ∧ (completeFrame fr s).patternSource = s.patternSource ∧ (completeFrame fr s).flatLevel = s.flatLevel
      ∧ (completeFrame fr s).zones = s.zones ∧ (completeFrame fr s).level = s.level ∧ (completeFrame fr s).peers = s.peers
      ∧ (completeFrame fr s).schedule = s.schedule ∧ (completeFrame fr s).bus = s.bus ∧ (completeFrame fr s).timer = s.timer
      ∧ (completeFrame fr s).photo = s.photo ∧ (completeFrame fr s).scan = s.scan ∧ (completeFrame fr s).converter = s.converter
      ∧ (completeFrame fr s).console = s.console := by
  unfold completeFrame
  (repeat' split) <;> simp

@[simp] theorem takeFrameEnd_frame :
    (takeFrameEnd s).pending = s.pending ∧ (takeFrameEnd s).now = s.now ∧ (takeFrameEnd s).resetPhase = s.resetPhase
      ∧ (takeFrameEnd s).due = s.due ∧ (takeFrameEnd s).draws = s.draws ∧ (takeFrameEnd s).straps = s.straps
      ∧ (takeFrameEnd s).eeprom = s.eeprom ∧ (takeFrameEnd s).loader = s.loader ∧ (takeFrameEnd s).settings = s.settings
      ∧ (takeFrameEnd s).encoder = s.encoder ∧ (takeFrameEnd s).patternSource = s.patternSource ∧ (takeFrameEnd s).flatLevel = s.flatLevel
      ∧ (takeFrameEnd s).zones = s.zones ∧ (takeFrameEnd s).level = s.level ∧ (takeFrameEnd s).peers = s.peers
      ∧ (takeFrameEnd s).schedule = s.schedule ∧ (takeFrameEnd s).bus = s.bus ∧ (takeFrameEnd s).timer = s.timer
      ∧ (takeFrameEnd s).photo = s.photo ∧ (takeFrameEnd s).scan = s.scan ∧ (takeFrameEnd s).converter = s.converter
      ∧ (takeFrameEnd s).console = s.console := by
  unfold takeFrameEnd
  (repeat' split) <;> simp

@[simp] theorem loseInput_frame :
    (loseInput s).pending = s.pending ∧ (loseInput s).now = s.now ∧ (loseInput s).resetPhase = s.resetPhase
      ∧ (loseInput s).due = s.due ∧ (loseInput s).draws = s.draws ∧ (loseInput s).straps = s.straps
      ∧ (loseInput s).eeprom = s.eeprom ∧ (loseInput s).loader = s.loader ∧ (loseInput s).settings = s.settings
      ∧ (loseInput s).encoder = s.encoder ∧ (loseInput s).patternSource = s.patternSource ∧ (loseInput s).flatLevel = s.flatLevel
      ∧ (loseInput s).zones = s.zones ∧ (loseInput s).life = s.life ∧ (loseInput s).level = s.level
      ∧ (loseInput s).peers = s.peers ∧ (loseInput s).schedule = s.schedule ∧ (loseInput s).bus = s.bus
      ∧ (loseInput s).timer = s.timer ∧ (loseInput s).photo = s.photo ∧ (loseInput s).scan = s.scan
      ∧ (loseInput s).converter = s.converter ∧ (loseInput s).console = s.console := by
  unfold loseInput
  (repeat' split) <;> simp

@[simp] theorem inputAtMark_frame :
    (inputAtMark s).pending = s.pending ∧ (inputAtMark s).now = s.now ∧ (inputAtMark s).resetPhase = s.resetPhase
      ∧ (inputAtMark s).due = s.due ∧ (inputAtMark s).draws = s.draws ∧ (inputAtMark s).straps = s.straps
      ∧ (inputAtMark s).eeprom = s.eeprom ∧ (inputAtMark s).loader = s.loader ∧ (inputAtMark s).settings = s.settings
      ∧ (inputAtMark s).buffers = s.buffers ∧ (inputAtMark s).encoder = s.encoder ∧ (inputAtMark s).patternSource = s.patternSource
      ∧ (inputAtMark s).flatLevel = s.flatLevel ∧ (inputAtMark s).zones = s.zones ∧ (inputAtMark s).life = s.life
      ∧ (inputAtMark s).level = s.level ∧ (inputAtMark s).peers = s.peers ∧ (inputAtMark s).schedule = s.schedule
      ∧ (inputAtMark s).bus = s.bus ∧ (inputAtMark s).timer = s.timer ∧ (inputAtMark s).photo = s.photo
      ∧ (inputAtMark s).scan = s.scan ∧ (inputAtMark s).converter = s.converter ∧ (inputAtMark s).console = s.console
      ∧ (inputAtMark s).faults = s.faults := by
  unfold inputAtMark
  (repeat' split) <;> simp

@[simp] theorem holdTest_frame :
    (holdTest s).pending = s.pending ∧ (holdTest s).now = s.now ∧ (holdTest s).resetPhase = s.resetPhase
      ∧ (holdTest s).due = s.due ∧ (holdTest s).draws = s.draws ∧ (holdTest s).straps = s.straps
      ∧ (holdTest s).eeprom = s.eeprom ∧ (holdTest s).loader = s.loader ∧ (holdTest s).settings = s.settings
      ∧ (holdTest s).input = s.input ∧ (holdTest s).buffers = s.buffers ∧ (holdTest s).encoder = s.encoder
      ∧ (holdTest s).patternSource = s.patternSource ∧ (holdTest s).flatLevel = s.flatLevel ∧ (holdTest s).zones = s.zones
      ∧ (holdTest s).peers = s.peers ∧ (holdTest s).schedule = s.schedule ∧ (holdTest s).timer = s.timer
      ∧ (holdTest s).photo = s.photo ∧ (holdTest s).scan = s.scan ∧ (holdTest s).converter = s.converter
      ∧ (holdTest s).console = s.console := by
  unfold holdTest
  (repeat' split) <;> simp

/-! ### Machine/Photometry.lean -/

@[simp] theorem stepMeasurement_frame :
    (stepMeasurement s).pending = s.pending ∧ (stepMeasurement s).now = s.now ∧ (stepMeasurement s).resetPhase = s.resetPhase
      ∧ (stepMeasurement s).due = s.due ∧ (stepMeasurement s).draws = s.draws ∧ (stepMeasurement s).straps = s.straps
      ∧ (stepMeasurement s).eeprom = s.eeprom ∧ (stepMeasurement s).loader = s.loader ∧ (stepMeasurement s).settings = s.settings
      ∧ (stepMeasurement s).input = s.input ∧ (stepMeasurement s).buffers = s.buffers ∧ (stepMeasurement s).encoder = s.encoder
      ∧ (stepMeasurement s).patternSource = s.patternSource ∧ (stepMeasurement s).flatLevel = s.flatLevel ∧ (stepMeasurement s).zones = s.zones
      ∧ (stepMeasurement s).peers = s.peers ∧ (stepMeasurement s).timer = s.timer ∧ (stepMeasurement s).scan = s.scan
      ∧ (stepMeasurement s).converter = s.converter ∧ (stepMeasurement s).console = s.console ∧ (stepMeasurement s).faults = s.faults := by
  unfold stepMeasurement
  (repeat' split) <;> simp

@[simp] theorem State.setStreak_frame (i n : Nat) :
    (s.setStreak i n).pending = s.pending ∧ (s.setStreak i n).now = s.now ∧ (s.setStreak i n).resetPhase = s.resetPhase
      ∧ (s.setStreak i n).due = s.due ∧ (s.setStreak i n).draws = s.draws ∧ (s.setStreak i n).straps = s.straps
      ∧ (s.setStreak i n).eeprom = s.eeprom ∧ (s.setStreak i n).loader = s.loader ∧ (s.setStreak i n).settings = s.settings
      ∧ (s.setStreak i n).input = s.input ∧ (s.setStreak i n).buffers = s.buffers ∧ (s.setStreak i n).encoder = s.encoder
      ∧ (s.setStreak i n).patternSource = s.patternSource ∧ (s.setStreak i n).flatLevel = s.flatLevel ∧ (s.setStreak i n).zones = s.zones
      ∧ (s.setStreak i n).life = s.life ∧ (s.setStreak i n).level = s.level ∧ (s.setStreak i n).peers = s.peers
      ∧ (s.setStreak i n).schedule = s.schedule ∧ (s.setStreak i n).bus = s.bus ∧ (s.setStreak i n).timer = s.timer
      ∧ (s.setStreak i n).scan = s.scan ∧ (s.setStreak i n).converter = s.converter ∧ (s.setStreak i n).console = s.console
      ∧ (s.setStreak i n).faults = s.faults := by
  simp [State.setStreak]

@[simp] theorem raiseLampLow_frame :
    (raiseLampLow s).pending = s.pending ∧ (raiseLampLow s).now = s.now ∧ (raiseLampLow s).resetPhase = s.resetPhase
      ∧ (raiseLampLow s).due = s.due ∧ (raiseLampLow s).draws = s.draws ∧ (raiseLampLow s).straps = s.straps
      ∧ (raiseLampLow s).eeprom = s.eeprom ∧ (raiseLampLow s).loader = s.loader ∧ (raiseLampLow s).settings = s.settings
      ∧ (raiseLampLow s).input = s.input ∧ (raiseLampLow s).buffers = s.buffers ∧ (raiseLampLow s).encoder = s.encoder
      ∧ (raiseLampLow s).patternSource = s.patternSource ∧ (raiseLampLow s).flatLevel = s.flatLevel ∧ (raiseLampLow s).zones = s.zones
      ∧ (raiseLampLow s).peers = s.peers ∧ (raiseLampLow s).schedule = s.schedule ∧ (raiseLampLow s).timer = s.timer
      ∧ (raiseLampLow s).scan = s.scan ∧ (raiseLampLow s).converter = s.converter ∧ (raiseLampLow s).console = s.console := by
  unfold raiseLampLow
  simp

@[simp] theorem clearLampLow_frame :
    (clearLampLow s).pending = s.pending ∧ (clearLampLow s).now = s.now ∧ (clearLampLow s).resetPhase = s.resetPhase
      ∧ (clearLampLow s).due = s.due ∧ (clearLampLow s).draws = s.draws ∧ (clearLampLow s).straps = s.straps
      ∧ (clearLampLow s).eeprom = s.eeprom ∧ (clearLampLow s).loader = s.loader ∧ (clearLampLow s).settings = s.settings
      ∧ (clearLampLow s).input = s.input ∧ (clearLampLow s).buffers = s.buffers ∧ (clearLampLow s).encoder = s.encoder
      ∧ (clearLampLow s).patternSource = s.patternSource ∧ (clearLampLow s).flatLevel = s.flatLevel ∧ (clearLampLow s).zones = s.zones
      ∧ (clearLampLow s).level = s.level ∧ (clearLampLow s).peers = s.peers ∧ (clearLampLow s).schedule = s.schedule
      ∧ (clearLampLow s).bus = s.bus ∧ (clearLampLow s).timer = s.timer ∧ (clearLampLow s).scan = s.scan
      ∧ (clearLampLow s).converter = s.converter ∧ (clearLampLow s).console = s.console ∧ (clearLampLow s).faults = s.faults := by
  simp [clearLampLow]

@[simp] theorem lampTest_frame :
    (lampTest s).pending = s.pending ∧ (lampTest s).now = s.now ∧ (lampTest s).resetPhase = s.resetPhase
      ∧ (lampTest s).due = s.due ∧ (lampTest s).draws = s.draws ∧ (lampTest s).straps = s.straps
      ∧ (lampTest s).eeprom = s.eeprom ∧ (lampTest s).loader = s.loader ∧ (lampTest s).settings = s.settings
      ∧ (lampTest s).input = s.input ∧ (lampTest s).buffers = s.buffers ∧ (lampTest s).encoder = s.encoder
      ∧ (lampTest s).patternSource = s.patternSource ∧ (lampTest s).flatLevel = s.flatLevel ∧ (lampTest s).zones = s.zones
      ∧ (lampTest s).peers = s.peers ∧ (lampTest s).schedule = s.schedule ∧ (lampTest s).timer = s.timer
      ∧ (lampTest s).scan = s.scan ∧ (lampTest s).converter = s.converter ∧ (lampTest s).console = s.console := by
  unfold lampTest
  (repeat' (first | split | (dsimp only; split))) <;> simp

@[simp] theorem raiseThermal_frame :
    (raiseThermal s).pending = s.pending ∧ (raiseThermal s).now = s.now ∧ (raiseThermal s).resetPhase = s.resetPhase
      ∧ (raiseThermal s).due = s.due ∧ (raiseThermal s).draws = s.draws ∧ (raiseThermal s).straps = s.straps
      ∧ (raiseThermal s).eeprom = s.eeprom ∧ (raiseThermal s).loader = s.loader ∧ (raiseThermal s).settings = s.settings
      ∧ (raiseThermal s).input = s.input ∧ (raiseThermal s).buffers = s.buffers ∧ (raiseThermal s).encoder = s.encoder
      ∧ (raiseThermal s).patternSource = s.patternSource ∧ (raiseThermal s).flatLevel = s.flatLevel ∧ (raiseThermal s).zones = s.zones
      ∧ (raiseThermal s).peers = s.peers ∧ (raiseThermal s).schedule = s.schedule ∧ (raiseThermal s).timer = s.timer
      ∧ (raiseThermal s).scan = s.scan ∧ (raiseThermal s).converter = s.converter ∧ (raiseThermal s).console = s.console := by
  unfold raiseThermal
  simp

@[simp] theorem clearThermal_frame :
    (clearThermal s).pending = s.pending ∧ (clearThermal s).now = s.now ∧ (clearThermal s).resetPhase = s.resetPhase
      ∧ (clearThermal s).due = s.due ∧ (clearThermal s).draws = s.draws ∧ (clearThermal s).straps = s.straps
      ∧ (clearThermal s).eeprom = s.eeprom ∧ (clearThermal s).loader = s.loader ∧ (clearThermal s).settings = s.settings
      ∧ (clearThermal s).input = s.input ∧ (clearThermal s).buffers = s.buffers ∧ (clearThermal s).encoder = s.encoder
      ∧ (clearThermal s).patternSource = s.patternSource ∧ (clearThermal s).flatLevel = s.flatLevel ∧ (clearThermal s).zones = s.zones
      ∧ (clearThermal s).level = s.level ∧ (clearThermal s).peers = s.peers ∧ (clearThermal s).schedule = s.schedule
      ∧ (clearThermal s).bus = s.bus ∧ (clearThermal s).timer = s.timer ∧ (clearThermal s).scan = s.scan
      ∧ (clearThermal s).converter = s.converter ∧ (clearThermal s).console = s.console ∧ (clearThermal s).faults = s.faults := by
  simp [clearThermal]

@[simp] theorem thermalTest_frame :
    (thermalTest s).pending = s.pending ∧ (thermalTest s).now = s.now ∧ (thermalTest s).resetPhase = s.resetPhase
      ∧ (thermalTest s).due = s.due ∧ (thermalTest s).draws = s.draws ∧ (thermalTest s).straps = s.straps
      ∧ (thermalTest s).eeprom = s.eeprom ∧ (thermalTest s).loader = s.loader ∧ (thermalTest s).settings = s.settings
      ∧ (thermalTest s).input = s.input ∧ (thermalTest s).buffers = s.buffers ∧ (thermalTest s).encoder = s.encoder
      ∧ (thermalTest s).patternSource = s.patternSource ∧ (thermalTest s).flatLevel = s.flatLevel ∧ (thermalTest s).zones = s.zones
      ∧ (thermalTest s).peers = s.peers ∧ (thermalTest s).schedule = s.schedule ∧ (thermalTest s).timer = s.timer
      ∧ (thermalTest s).scan = s.scan ∧ (thermalTest s).converter = s.converter ∧ (thermalTest s).console = s.console := by
  unfold thermalTest
  (repeat' (first | split | (dsimp only; split))) <;> simp

/-! ### Machine/FrameMark.lean -/

@[simp] theorem timerAtMark_frame :
    (timerAtMark s).pending = s.pending ∧ (timerAtMark s).now = s.now ∧ (timerAtMark s).resetPhase = s.resetPhase
      ∧ (timerAtMark s).due = s.due ∧ (timerAtMark s).draws = s.draws ∧ (timerAtMark s).straps = s.straps
      ∧ (timerAtMark s).eeprom = s.eeprom ∧ (timerAtMark s).loader = s.loader ∧ (timerAtMark s).settings = s.settings
      ∧ (timerAtMark s).input = s.input ∧ (timerAtMark s).buffers = s.buffers ∧ (timerAtMark s).encoder = s.encoder
      ∧ (timerAtMark s).patternSource = s.patternSource ∧ (timerAtMark s).flatLevel = s.flatLevel ∧ (timerAtMark s).zones = s.zones
      ∧ (timerAtMark s).life = s.life ∧ (timerAtMark s).level = s.level ∧ (timerAtMark s).peers = s.peers
      ∧ (timerAtMark s).schedule = s.schedule ∧ (timerAtMark s).bus = s.bus ∧ (timerAtMark s).photo = s.photo
      ∧ (timerAtMark s).scan = s.scan ∧ (timerAtMark s).converter = s.converter ∧ (timerAtMark s).console = s.console
      ∧ (timerAtMark s).faults = s.faults := by
  simp [timerAtMark]

@[simp] theorem straddleAtMark_frame :
    (straddleAtMark s).pending = s.pending ∧ (straddleAtMark s).now = s.now ∧ (straddleAtMark s).resetPhase = s.resetPhase
      ∧ (straddleAtMark s).due = s.due ∧ (straddleAtMark s).draws = s.draws ∧ (straddleAtMark s).straps = s.straps
      ∧ (straddleAtMark s).eeprom = s.eeprom ∧ (straddleAtMark s).loader = s.loader ∧ (straddleAtMark s).settings = s.settings
      ∧ (straddleAtMark s).input = s.input ∧ (straddleAtMark s).buffers = s.buffers ∧ (straddleAtMark s).encoder = s.encoder
      ∧ (straddleAtMark s).patternSource = s.patternSource ∧ (straddleAtMark s).flatLevel = s.flatLevel ∧ (straddleAtMark s).zones = s.zones
      ∧ (straddleAtMark s).life = s.life ∧ (straddleAtMark s).level = s.level ∧ (straddleAtMark s).peers = s.peers
      ∧ (straddleAtMark s).schedule = s.schedule ∧ (straddleAtMark s).timer = s.timer ∧ (straddleAtMark s).photo = s.photo
      ∧ (straddleAtMark s).scan = s.scan ∧ (straddleAtMark s).converter = s.converter ∧ (straddleAtMark s).console = s.console
      ∧ (straddleAtMark s).faults = s.faults := by
  simp [straddleAtMark]

@[simp] theorem becomeStuck_frame :
    (becomeStuck s).pending = s.pending ∧ (becomeStuck s).now = s.now ∧ (becomeStuck s).resetPhase = s.resetPhase
      ∧ (becomeStuck s).due = s.due ∧ (becomeStuck s).draws = s.draws ∧ (becomeStuck s).straps = s.straps
      ∧ (becomeStuck s).eeprom = s.eeprom ∧ (becomeStuck s).loader = s.loader ∧ (becomeStuck s).settings = s.settings
      ∧ (becomeStuck s).input = s.input ∧ (becomeStuck s).buffers = s.buffers ∧ (becomeStuck s).encoder = s.encoder
      ∧ (becomeStuck s).patternSource = s.patternSource ∧ (becomeStuck s).flatLevel = s.flatLevel ∧ (becomeStuck s).zones = s.zones
      ∧ (becomeStuck s).life = s.life ∧ (becomeStuck s).level = s.level ∧ (becomeStuck s).peers = s.peers
      ∧ (becomeStuck s).schedule = s.schedule ∧ (becomeStuck s).bus = s.bus ∧ (becomeStuck s).photo = s.photo
      ∧ (becomeStuck s).scan = s.scan ∧ (becomeStuck s).converter = s.converter ∧ (becomeStuck s).console = s.console := by
  simp [becomeStuck]

@[simp] theorem recoverLine_frame :
    (recoverLine s).pending = s.pending ∧ (recoverLine s).now = s.now ∧ (recoverLine s).resetPhase = s.resetPhase
      ∧ (recoverLine s).due = s.due ∧ (recoverLine s).draws = s.draws ∧ (recoverLine s).straps = s.straps
      ∧ (recoverLine s).eeprom = s.eeprom ∧ (recoverLine s).loader = s.loader ∧ (recoverLine s).settings = s.settings
      ∧ (recoverLine s).input = s.input ∧ (recoverLine s).buffers = s.buffers ∧ (recoverLine s).encoder = s.encoder
      ∧ (recoverLine s).patternSource = s.patternSource ∧ (recoverLine s).flatLevel = s.flatLevel ∧ (recoverLine s).zones = s.zones
      ∧ (recoverLine s).life = s.life ∧ (recoverLine s).level = s.level ∧ (recoverLine s).peers = s.peers
      ∧ (recoverLine s).schedule = s.schedule ∧ (recoverLine s).bus = s.bus ∧ (recoverLine s).photo = s.photo
      ∧ (recoverLine s).scan = s.scan ∧ (recoverLine s).converter = s.converter ∧ (recoverLine s).console = s.console
      ∧ (recoverLine s).faults = s.faults := by
  simp [recoverLine]

@[simp] theorem takeRise_frame :
    (takeRise s).pending = s.pending ∧ (takeRise s).now = s.now ∧ (takeRise s).resetPhase = s.resetPhase
      ∧ (takeRise s).due = s.due ∧ (takeRise s).draws = s.draws ∧ (takeRise s).straps = s.straps
      ∧ (takeRise s).eeprom = s.eeprom ∧ (takeRise s).loader = s.loader ∧ (takeRise s).settings = s.settings
      ∧ (takeRise s).input = s.input ∧ (takeRise s).buffers = s.buffers ∧ (takeRise s).encoder = s.encoder
      ∧ (takeRise s).patternSource = s.patternSource ∧ (takeRise s).flatLevel = s.flatLevel ∧ (takeRise s).zones = s.zones
      ∧ (takeRise s).life = s.life ∧ (takeRise s).level = s.level ∧ (takeRise s).peers = s.peers
      ∧ (takeRise s).schedule = s.schedule ∧ (takeRise s).bus = s.bus ∧ (takeRise s).photo = s.photo
      ∧ (takeRise s).scan = s.scan ∧ (takeRise s).converter = s.converter ∧ (takeRise s).console = s.console
      ∧ (takeRise s).faults = s.faults := by
  unfold takeRise
  (repeat' split) <;> simp

/-! ### Machine/ImageLoad.lean -/

@[simp] theorem beginLoad_frame :
    (beginLoad s).pending = s.pending ∧ (beginLoad s).now = s.now ∧ (beginLoad s).resetPhase = s.resetPhase
      ∧ (beginLoad s).due = s.due ∧ (beginLoad s).draws = s.draws ∧ (beginLoad s).straps = s.straps
      ∧ (beginLoad s).eeprom = s.eeprom ∧ (beginLoad s).settings = s.settings ∧ (beginLoad s).input = s.input
      ∧ (beginLoad s).buffers = s.buffers ∧ (beginLoad s).encoder = s.encoder ∧ (beginLoad s).patternSource = s.patternSource
      ∧ (beginLoad s).flatLevel = s.flatLevel ∧ (beginLoad s).zones = s.zones ∧ (beginLoad s).life = s.life
      ∧ (beginLoad s).level = s.level ∧ (beginLoad s).peers = s.peers ∧ (beginLoad s).schedule = s.schedule
      ∧ (beginLoad s).bus = s.bus ∧ (beginLoad s).timer = s.timer ∧ (beginLoad s).photo = s.photo
      ∧ (beginLoad s).scan = s.scan ∧ (beginLoad s).converter = s.converter ∧ (beginLoad s).console = s.console
      ∧ (beginLoad s).faults = s.faults := by
  simp [beginLoad]

@[simp] theorem State.addClamped_frame (n : Nat) :
    (s.addClamped n).pending = s.pending ∧ (s.addClamped n).now = s.now ∧ (s.addClamped n).resetPhase = s.resetPhase
      ∧ (s.addClamped n).due = s.due ∧ (s.addClamped n).draws = s.draws ∧ (s.addClamped n).straps = s.straps
      ∧ (s.addClamped n).eeprom = s.eeprom ∧ (s.addClamped n).settings = s.settings ∧ (s.addClamped n).input = s.input
      ∧ (s.addClamped n).buffers = s.buffers ∧ (s.addClamped n).encoder = s.encoder ∧ (s.addClamped n).patternSource = s.patternSource
      ∧ (s.addClamped n).flatLevel = s.flatLevel ∧ (s.addClamped n).zones = s.zones ∧ (s.addClamped n).life = s.life
      ∧ (s.addClamped n).level = s.level ∧ (s.addClamped n).peers = s.peers ∧ (s.addClamped n).schedule = s.schedule
      ∧ (s.addClamped n).bus = s.bus ∧ (s.addClamped n).timer = s.timer ∧ (s.addClamped n).photo = s.photo
      ∧ (s.addClamped n).scan = s.scan ∧ (s.addClamped n).converter = s.converter ∧ (s.addClamped n).console = s.console
      ∧ (s.addClamped n).faults = s.faults := by
  simp [State.addClamped]

@[simp] theorem State.recordCheck_frame (k : Nat) (b : Bool) :
    (s.recordCheck k b).pending = s.pending ∧ (s.recordCheck k b).now = s.now ∧ (s.recordCheck k b).resetPhase = s.resetPhase
      ∧ (s.recordCheck k b).due = s.due ∧ (s.recordCheck k b).draws = s.draws ∧ (s.recordCheck k b).straps = s.straps
      ∧ (s.recordCheck k b).eeprom = s.eeprom ∧ (s.recordCheck k b).settings = s.settings ∧ (s.recordCheck k b).input = s.input
      ∧ (s.recordCheck k b).buffers = s.buffers ∧ (s.recordCheck k b).encoder = s.encoder ∧ (s.recordCheck k b).patternSource = s.patternSource
      ∧ (s.recordCheck k b).flatLevel = s.flatLevel ∧ (s.recordCheck k b).zones = s.zones ∧ (s.recordCheck k b).life = s.life
      ∧ (s.recordCheck k b).level = s.level ∧ (s.recordCheck k b).peers = s.peers ∧ (s.recordCheck k b).schedule = s.schedule
      ∧ (s.recordCheck k b).bus = s.bus ∧ (s.recordCheck k b).timer = s.timer ∧ (s.recordCheck k b).photo = s.photo
      ∧ (s.recordCheck k b).scan = s.scan ∧ (s.recordCheck k b).converter = s.converter ∧ (s.recordCheck k b).console = s.console := by
  unfold State.recordCheck
  (repeat' (first | split | (dsimp only; split))) <;> simp

@[simp] theorem blankImage_frame :
    (blankImage s).pending = s.pending ∧ (blankImage s).now = s.now ∧ (blankImage s).resetPhase = s.resetPhase
      ∧ (blankImage s).due = s.due ∧ (blankImage s).draws = s.draws ∧ (blankImage s).straps = s.straps
      ∧ (blankImage s).eeprom = s.eeprom ∧ (blankImage s).settings = s.settings ∧ (blankImage s).input = s.input
      ∧ (blankImage s).buffers = s.buffers ∧ (blankImage s).encoder = s.encoder ∧ (blankImage s).patternSource = s.patternSource
      ∧ (blankImage s).flatLevel = s.flatLevel ∧ (blankImage s).zones = s.zones ∧ (blankImage s).life = s.life
      ∧ (blankImage s).level = s.level ∧ (blankImage s).peers = s.peers ∧ (blankImage s).schedule = s.schedule
      ∧ (blankImage s).bus = s.bus ∧ (blankImage s).timer = s.timer ∧ (blankImage s).photo = s.photo
      ∧ (blankImage s).scan = s.scan ∧ (blankImage s).converter = s.converter ∧ (blankImage s).console = s.console
      ∧ (blankImage s).faults = s.faults := by
  simp [blankImage]

@[simp] theorem State.setLoadPhase_frame (p : LoadPhase) :
    (s.setLoadPhase p).pending = s.pending ∧ (s.setLoadPhase p).now = s.now ∧ (s.setLoadPhase p).resetPhase = s.resetPhase
      ∧ (s.setLoadPhase p).due = s.due ∧ (s.setLoadPhase p).draws = s.draws ∧ (s.setLoadPhase p).straps = s.straps
      ∧ (s.setLoadPhase p).eeprom = s.eeprom ∧ (s.setLoadPhase p).settings = s.settings ∧ (s.setLoadPhase p).input = s.input
      ∧ (s.setLoadPhase p).buffers = s.buffers ∧ (s.setLoadPhase p).encoder = s.encoder ∧ (s.setLoadPhase p).patternSource = s.patternSource
      ∧ (s.setLoadPhase p).flatLevel = s.flatLevel ∧ (s.setLoadPhase p).zones = s.zones ∧ (s.setLoadPhase p).life = s.life
      ∧ (s.setLoadPhase p).level = s.level ∧ (s.setLoadPhase p).peers = s.peers ∧ (s.setLoadPhase p).schedule = s.schedule
      ∧ (s.setLoadPhase p).bus = s.bus ∧ (s.setLoadPhase p).timer = s.timer ∧ (s.setLoadPhase p).photo = s.photo
      ∧ (s.setLoadPhase p).scan = s.scan ∧ (s.setLoadPhase p).converter = s.converter ∧ (s.setLoadPhase p).console = s.console
      ∧ (s.setLoadPhase p).faults = s.faults := by
  simp [State.setLoadPhase]

@[simp] theorem eepromReady_frame :
    (eepromReady s).pending = s.pending ∧ (eepromReady s).now = s.now ∧ (eepromReady s).resetPhase = s.resetPhase
      ∧ (eepromReady s).due = s.due ∧ (eepromReady s).draws = s.draws ∧ (eepromReady s).straps = s.straps
      ∧ (eepromReady s).eeprom = s.eeprom ∧ (eepromReady s).settings = s.settings ∧ (eepromReady s).input = s.input
      ∧ (eepromReady s).buffers = s.buffers ∧ (eepromReady s).encoder = s.encoder ∧ (eepromReady s).patternSource = s.patternSource
      ∧ (eepromReady s).flatLevel = s.flatLevel ∧ (eepromReady s).zones = s.zones ∧ (eepromReady s).life = s.life
      ∧ (eepromReady s).level = s.level ∧ (eepromReady s).peers = s.peers ∧ (eepromReady s).schedule = s.schedule
      ∧ (eepromReady s).bus = s.bus ∧ (eepromReady s).timer = s.timer ∧ (eepromReady s).photo = s.photo
      ∧ (eepromReady s).scan = s.scan ∧ (eepromReady s).converter = s.converter ∧ (eepromReady s).console = s.console
      ∧ (eepromReady s).faults = s.faults := by
  unfold eepromReady
  (repeat' (first | split | (dsimp only; split))) <;> simp

@[simp] theorem checkHeader_frame :
    (checkHeader s).pending = s.pending ∧ (checkHeader s).now = s.now ∧ (checkHeader s).resetPhase = s.resetPhase
      ∧ (checkHeader s).due = s.due ∧ (checkHeader s).draws = s.draws ∧ (checkHeader s).straps = s.straps
      ∧ (checkHeader s).eeprom = s.eeprom ∧ (checkHeader s).settings = s.settings ∧ (checkHeader s).input = s.input
      ∧ (checkHeader s).buffers = s.buffers ∧ (checkHeader s).encoder = s.encoder ∧ (checkHeader s).patternSource = s.patternSource
      ∧ (checkHeader s).flatLevel = s.flatLevel ∧ (checkHeader s).zones = s.zones ∧ (checkHeader s).life = s.life
      ∧ (checkHeader s).level = s.level ∧ (checkHeader s).peers = s.peers ∧ (checkHeader s).schedule = s.schedule
      ∧ (checkHeader s).bus = s.bus ∧ (checkHeader s).timer = s.timer ∧ (checkHeader s).photo = s.photo
      ∧ (checkHeader s).scan = s.scan ∧ (checkHeader s).converter = s.converter ∧ (checkHeader s).console = s.console := by
  unfold checkHeader
  (repeat' split) <;> simp

@[simp] theorem handOut_frame :
    (handOut s).pending = s.pending ∧ (handOut s).now = s.now ∧ (handOut s).resetPhase = s.resetPhase
      ∧ (handOut s).due = s.due ∧ (handOut s).draws = s.draws ∧ (handOut s).straps = s.straps
      ∧ (handOut s).eeprom = s.eeprom ∧ (handOut s).loader = s.loader ∧ (handOut s).input = s.input
      ∧ (handOut s).buffers = s.buffers ∧ (handOut s).encoder = s.encoder ∧ (handOut s).patternSource = s.patternSource
      ∧ (handOut s).flatLevel = s.flatLevel ∧ (handOut s).zones = s.zones ∧ (handOut s).life = s.life
      ∧ (handOut s).level = s.level ∧ (handOut s).peers = s.peers ∧ (handOut s).schedule = s.schedule
      ∧ (handOut s).bus = s.bus ∧ (handOut s).timer = s.timer ∧ (handOut s).scan = s.scan
      ∧ (handOut s).converter = s.converter ∧ (handOut s).console = s.console ∧ (handOut s).faults = s.faults := by
  unfold handOut
  (repeat' split) <;> simp

@[simp] theorem startTimers_frame :
    (startTimers s).pending = s.pending ∧ (startTimers s).now = s.now ∧ (startTimers s).resetPhase = s.resetPhase
      ∧ (startTimers s).due = s.due ∧ (startTimers s).draws = s.draws ∧ (startTimers s).straps = s.straps
      ∧ (startTimers s).eeprom = s.eeprom ∧ (startTimers s).loader = s.loader ∧ (startTimers s).settings = s.settings
      ∧ (startTimers s).buffers = s.buffers ∧ (startTimers s).encoder = s.encoder ∧ (startTimers s).patternSource = s.patternSource
      ∧ (startTimers s).flatLevel = s.flatLevel ∧ (startTimers s).zones = s.zones ∧ (startTimers s).life = s.life
      ∧ (startTimers s).level = s.level ∧ (startTimers s).peers = s.peers ∧ (startTimers s).schedule = s.schedule
      ∧ (startTimers s).bus = s.bus ∧ (startTimers s).photo = s.photo ∧ (startTimers s).scan = s.scan
      ∧ (startTimers s).converter = s.converter ∧ (startTimers s).console = s.console ∧ (startTimers s).faults = s.faults := by
  unfold startTimers
  (repeat' (first | split | (dsimp only; split))) <;> simp

@[simp] theorem beginStore_frame (a : Nat) (bs : List Byte) :
    (beginStore a bs s).pending = s.pending ∧ (beginStore a bs s).now = s.now ∧ (beginStore a bs s).resetPhase = s.resetPhase
      ∧ (beginStore a bs s).due = s.due ∧ (beginStore a bs s).draws = s.draws ∧ (beginStore a bs s).straps = s.straps
      ∧ (beginStore a bs s).eeprom = s.eeprom ∧ (beginStore a bs s).settings = s.settings ∧ (beginStore a bs s).input = s.input
      ∧ (beginStore a bs s).buffers = s.buffers ∧ (beginStore a bs s).encoder = s.encoder ∧ (beginStore a bs s).patternSource = s.patternSource
      ∧ (beginStore a bs s).flatLevel = s.flatLevel ∧ (beginStore a bs s).zones = s.zones ∧ (beginStore a bs s).life = s.life
      ∧ (beginStore a bs s).level = s.level ∧ (beginStore a bs s).peers = s.peers ∧ (beginStore a bs s).schedule = s.schedule
      ∧ (beginStore a bs s).bus = s.bus ∧ (beginStore a bs s).timer = s.timer ∧ (beginStore a bs s).photo = s.photo
      ∧ (beginStore a bs s).scan = s.scan ∧ (beginStore a bs s).converter = s.converter ∧ (beginStore a bs s).console = s.console
      ∧ (beginStore a bs s).faults = s.faults := by
  simp [beginStore]

@[simp] theorem endTransfer_frame :
    (endTransfer s).pending = s.pending ∧ (endTransfer s).now = s.now ∧ (endTransfer s).resetPhase = s.resetPhase
      ∧ (endTransfer s).due = s.due ∧ (endTransfer s).draws = s.draws ∧ (endTransfer s).straps = s.straps
      ∧ (endTransfer s).settings = s.settings ∧ (endTransfer s).input = s.input ∧ (endTransfer s).buffers = s.buffers
      ∧ (endTransfer s).encoder = s.encoder ∧ (endTransfer s).patternSource = s.patternSource ∧ (endTransfer s).flatLevel = s.flatLevel
      ∧ (endTransfer s).zones = s.zones ∧ (endTransfer s).life = s.life ∧ (endTransfer s).level = s.level
      ∧ (endTransfer s).peers = s.peers ∧ (endTransfer s).schedule = s.schedule ∧ (endTransfer s).bus = s.bus
      ∧ (endTransfer s).timer = s.timer ∧ (endTransfer s).photo = s.photo ∧ (endTransfer s).scan = s.scan
      ∧ (endTransfer s).converter = s.converter ∧ (endTransfer s).console = s.console ∧ (endTransfer s).faults = s.faults := by
  unfold endTransfer
  (repeat' split) <;> simp

@[simp] theorem clearStoreFlag_frame :
    (clearStoreFlag s).pending = s.pending ∧ (clearStoreFlag s).now = s.now ∧ (clearStoreFlag s).resetPhase = s.resetPhase
      ∧ (clearStoreFlag s).due = s.due ∧ (clearStoreFlag s).draws = s.draws ∧ (clearStoreFlag s).straps = s.straps
      ∧ (clearStoreFlag s).settings = s.settings ∧ (clearStoreFlag s).input = s.input ∧ (clearStoreFlag s).buffers = s.buffers
      ∧ (clearStoreFlag s).encoder = s.encoder ∧ (clearStoreFlag s).patternSource = s.patternSource ∧ (clearStoreFlag s).flatLevel = s.flatLevel
      ∧ (clearStoreFlag s).zones = s.zones ∧ (clearStoreFlag s).life = s.life ∧ (clearStoreFlag s).level = s.level
      ∧ (clearStoreFlag s).peers = s.peers ∧ (clearStoreFlag s).schedule = s.schedule ∧ (clearStoreFlag s).bus = s.bus
      ∧ (clearStoreFlag s).timer = s.timer ∧ (clearStoreFlag s).photo = s.photo ∧ (clearStoreFlag s).scan = s.scan
      ∧ (clearStoreFlag s).converter = s.converter ∧ (clearStoreFlag s).console = s.console ∧ (clearStoreFlag s).faults = s.faults := by
  unfold clearStoreFlag
  simp

@[simp] theorem losePower_frame :
    (losePower s).pending = s.pending ∧ (losePower s).now = s.now ∧ (losePower s).resetPhase = s.resetPhase
      ∧ (losePower s).due = s.due ∧ (losePower s).straps = s.straps ∧ (losePower s).settings = s.settings
      ∧ (losePower s).input = s.input ∧ (losePower s).buffers = s.buffers ∧ (losePower s).encoder = s.encoder
      ∧ (losePower s).patternSource = s.patternSource ∧ (losePower s).flatLevel = s.flatLevel ∧ (losePower s).zones = s.zones
      ∧ (losePower s).life = s.life ∧ (losePower s).level = s.level ∧ (losePower s).peers = s.peers
      ∧ (losePower s).schedule = s.schedule ∧ (losePower s).bus = s.bus ∧ (losePower s).timer = s.timer
      ∧ (losePower s).photo = s.photo ∧ (losePower s).scan = s.scan ∧ (losePower s).converter = s.converter
      ∧ (losePower s).console = s.console ∧ (losePower s).faults = s.faults := by
  unfold losePower
  (repeat' split) <;> simp

/-! ### Machine/BusReceive.lean -/

@[simp] theorem keepMessage_frame (m : Message) :
    (keepMessage m s).pending = s.pending ∧ (keepMessage m s).now = s.now ∧ (keepMessage m s).resetPhase = s.resetPhase
      ∧ (keepMessage m s).due = s.due ∧ (keepMessage m s).draws = s.draws ∧ (keepMessage m s).straps = s.straps
      ∧ (keepMessage m s).eeprom = s.eeprom ∧ (keepMessage m s).loader = s.loader ∧ (keepMessage m s).settings = s.settings
      ∧ (keepMessage m s).input = s.input ∧ (keepMessage m s).buffers = s.buffers ∧ (keepMessage m s).encoder = s.encoder
      ∧ (keepMessage m s).patternSource = s.patternSource ∧ (keepMessage m s).flatLevel = s.flatLevel ∧ (keepMessage m s).zones = s.zones
      ∧ (keepMessage m s).life = s.life ∧ (keepMessage m s).level = s.level ∧ (keepMessage m s).peers = s.peers
      ∧ (keepMessage m s).schedule = s.schedule ∧ (keepMessage m s).timer = s.timer ∧ (keepMessage m s).photo = s.photo
      ∧ (keepMessage m s).scan = s.scan ∧ (keepMessage m s).converter = s.converter ∧ (keepMessage m s).console = s.console := by
  unfold keepMessage
  (repeat' split) <;> simp

@[simp] theorem dropAssembly_frame :
    (dropAssembly s).pending = s.pending ∧ (dropAssembly s).now = s.now ∧ (dropAssembly s).resetPhase = s.resetPhase
      ∧ (dropAssembly s).due = s.due ∧ (dropAssembly s).draws = s.draws ∧ (dropAssembly s).straps = s.straps
      ∧ (dropAssembly s).eeprom = s.eeprom ∧ (dropAssembly s).loader = s.loader ∧ (dropAssembly s).settings = s.settings
      ∧ (dropAssembly s).input = s.input ∧ (dropAssembly s).buffers = s.buffers ∧ (dropAssembly s).encoder = s.encoder
      ∧ (dropAssembly s).patternSource = s.patternSource ∧ (dropAssembly s).flatLevel = s.flatLevel ∧ (dropAssembly s).zones = s.zones
      ∧ (dropAssembly s).life = s.life ∧ (dropAssembly s).level = s.level ∧ (dropAssembly s).peers = s.peers
      ∧ (dropAssembly s).schedule = s.schedule ∧ (dropAssembly s).timer = s.timer ∧ (dropAssembly s).photo = s.photo
      ∧ (dropAssembly s).scan = s.scan ∧ (dropAssembly s).converter = s.converter ∧ (dropAssembly s).console = s.console
      ∧ (dropAssembly s).faults = s.faults := by
  simp [dropAssembly]

@[simp] theorem breakMessage_frame :
    (breakMessage s).pending = s.pending ∧ (breakMessage s).now = s.now ∧ (breakMessage s).resetPhase = s.resetPhase
      ∧ (breakMessage s).due = s.due ∧ (breakMessage s).draws = s.draws ∧ (breakMessage s).straps = s.straps
      ∧ (breakMessage s).eeprom = s.eeprom ∧ (breakMessage s).loader = s.loader ∧ (breakMessage s).settings = s.settings
      ∧ (breakMessage s).input = s.input ∧ (breakMessage s).buffers = s.buffers ∧ (breakMessage s).encoder = s.encoder
      ∧ (breakMessage s).patternSource = s.patternSource ∧ (breakMessage s).flatLevel = s.flatLevel ∧ (breakMessage s).zones = s.zones
      ∧ (breakMessage s).life = s.life ∧ (breakMessage s).level = s.level ∧ (breakMessage s).peers = s.peers
      ∧ (breakMessage s).schedule = s.schedule ∧ (breakMessage s).timer = s.timer ∧ (breakMessage s).photo = s.photo
      ∧ (breakMessage s).scan = s.scan ∧ (breakMessage s).converter = s.converter ∧ (breakMessage s).console = s.console := by
  simp [breakMessage]

@[simp] theorem completeMessage_frame (a : Assembly) (d : Byte) :
    (completeMessage a d s).pending = s.pending ∧ (completeMessage a d s).now = s.now ∧ (completeMessage a d s).resetPhase = s.resetPhase
      ∧ (completeMessage a d s).due = s.due ∧ (completeMessage a d s).draws = s.draws ∧ (completeMessage a d s).straps = s.straps
      ∧ (completeMessage a d s).eeprom = s.eeprom ∧ (completeMessage a d s).loader = s.loader ∧ (completeMessage a d s).settings = s.settings
      ∧ (completeMessage a d s).input = s.input ∧ (completeMessage a d s).buffers = s.buffers ∧ (completeMessage a d s).encoder = s.encoder
      ∧ (completeMessage a d s).patternSource = s.patternSource ∧ (completeMessage a d s).flatLevel = s.flatLevel ∧ (completeMessage a d s).zones = s.zones
      ∧ (completeMessage a d s).life = s.life ∧ (completeMessage a d s).level = s.level ∧ (completeMessage a d s).peers = s.peers
      ∧ (completeMessage a d s).schedule = s.schedule ∧ (completeMessage a d s).timer = s.timer ∧ (completeMessage a d s).photo = s.photo
      ∧ (completeMessage a d s).scan = s.scan ∧ (completeMessage a d s).converter = s.converter ∧ (completeMessage a d s).console = s.console := by
  unfold completeMessage
  (repeat' split) <;> simp

@[simp] theorem extendMessage_frame (a : Assembly) (d : Byte) :
    (extendMessage a d s).pending = s.pending ∧ (extendMessage a d s).now = s.now ∧ (extendMessage a d s).resetPhase = s.resetPhase
      ∧ (extendMessage a d s).due = s.due ∧ (extendMessage a d s).draws = s.draws ∧ (extendMessage a d s).straps = s.straps
      ∧ (extendMessage a d s).eeprom = s.eeprom ∧ (extendMessage a d s).loader = s.loader ∧ (extendMessage a d s).settings = s.settings
      ∧ (extendMessage a d s).input = s.input ∧ (extendMessage a d s).buffers = s.buffers ∧ (extendMessage a d s).encoder = s.encoder
      ∧ (extendMessage a d s).patternSource = s.patternSource ∧ (extendMessage a d s).flatLevel = s.flatLevel ∧ (extendMessage a d s).zones = s.zones
      ∧ (extendMessage a d s).life = s.life ∧ (extendMessage a d s).level = s.level ∧ (extendMessage a d s).peers = s.peers
      ∧ (extendMessage a d s).schedule = s.schedule ∧ (extendMessage a d s).timer = s.timer ∧ (extendMessage a d s).photo = s.photo
      ∧ (extendMessage a d s).scan = s.scan ∧ (extendMessage a d s).converter = s.converter ∧ (extendMessage a d s).console = s.console := by
  unfold extendMessage
  (repeat' split) <;> simp

@[simp] theorem breakIfAny_frame :
    (breakIfAny s).pending = s.pending ∧ (breakIfAny s).now = s.now ∧ (breakIfAny s).resetPhase = s.resetPhase
      ∧ (breakIfAny s).due = s.due ∧ (breakIfAny s).draws = s.draws ∧ (breakIfAny s).straps = s.straps
      ∧ (breakIfAny s).eeprom = s.eeprom ∧ (breakIfAny s).loader = s.loader ∧ (breakIfAny s).settings = s.settings
      ∧ (breakIfAny s).input = s.input ∧ (breakIfAny s).buffers = s.buffers ∧ (breakIfAny s).encoder = s.encoder
      ∧ (breakIfAny s).patternSource = s.patternSource ∧ (breakIfAny s).flatLevel = s.flatLevel ∧ (breakIfAny s).zones = s.zones
      ∧ (breakIfAny s).life = s.life ∧ (breakIfAny s).level = s.level ∧ (breakIfAny s).peers = s.peers
      ∧ (breakIfAny s).schedule = s.schedule ∧ (breakIfAny s).timer = s.timer ∧ (breakIfAny s).photo = s.photo
      ∧ (breakIfAny s).scan = s.scan ∧ (breakIfAny s).converter = s.converter ∧ (breakIfAny s).console = s.console := by
  unfold breakIfAny
  (repeat' split) <;> simp

@[simp] theorem beginMessage_frame (l : Byte) :
    (beginMessage l s).pending = s.pending ∧ (beginMessage l s).now = s.now ∧ (beginMessage l s).resetPhase = s.resetPhase
      ∧ (beginMessage l s).due = s.due ∧ (beginMessage l s).draws = s.draws ∧ (beginMessage l s).straps = s.straps
      ∧ (beginMessage l s).eeprom = s.eeprom ∧ (beginMessage l s).loader = s.loader ∧ (beginMessage l s).settings = s.settings
      ∧ (beginMessage l s).input = s.input ∧ (beginMessage l s).buffers = s.buffers ∧ (beginMessage l s).encoder = s.encoder
      ∧ (beginMessage l s).patternSource = s.patternSource ∧ (beginMessage l s).flatLevel = s.flatLevel ∧ (beginMessage l s).zones = s.zones
      ∧ (beginMessage l s).life = s.life ∧ (beginMessage l s).level = s.level ∧ (beginMessage l s).peers = s.peers
      ∧ (beginMessage l s).schedule = s.schedule ∧ (beginMessage l s).timer = s.timer ∧ (beginMessage l s).photo = s.photo
      ∧ (beginMessage l s).scan = s.scan ∧ (beginMessage l s).converter = s.converter ∧ (beginMessage l s).console = s.console
      ∧ (beginMessage l s).faults = s.faults := by
  simp [beginMessage]

@[simp] theorem assemble_frame (ch : Character) :
    (assemble ch s).pending = s.pending ∧ (assemble ch s).now = s.now ∧ (assemble ch s).resetPhase = s.resetPhase
      ∧ (assemble ch s).due = s.due ∧ (assemble ch s).draws = s.draws ∧ (assemble ch s).straps = s.straps
      ∧ (assemble ch s).eeprom = s.eeprom ∧ (assemble ch s).loader = s.loader ∧ (assemble ch s).settings = s.settings
      ∧ (assemble ch s).input = s.input ∧ (assemble ch s).buffers = s.buffers ∧ (assemble ch s).encoder = s.encoder
      ∧ (assemble ch s).patternSource = s.patternSource ∧ (assemble ch s).flatLevel = s.flatLevel ∧ (assemble ch s).zones = s.zones
      ∧ (assemble ch s).life = s.life ∧ (assemble ch s).level = s.level ∧ (assemble ch s).peers = s.peers
      ∧ (assemble ch s).schedule = s.schedule ∧ (assemble ch s).timer = s.timer ∧ (assemble ch s).photo = s.photo
      ∧ (assemble ch s).scan = s.scan ∧ (assemble ch s).converter = s.converter ∧ (assemble ch s).console = s.console := by
  unfold assemble
  (repeat' split) <;> simp

@[simp] theorem hear_frame (ch : Character) :
    (hear ch s).pending = s.pending ∧ (hear ch s).now = s.now ∧ (hear ch s).resetPhase = s.resetPhase
      ∧ (hear ch s).due = s.due ∧ (hear ch s).draws = s.draws ∧ (hear ch s).straps = s.straps
      ∧ (hear ch s).eeprom = s.eeprom ∧ (hear ch s).loader = s.loader ∧ (hear ch s).settings = s.settings
      ∧ (hear ch s).input = s.input ∧ (hear ch s).buffers = s.buffers ∧ (hear ch s).encoder = s.encoder
      ∧ (hear ch s).patternSource = s.patternSource ∧ (hear ch s).flatLevel = s.flatLevel ∧ (hear ch s).zones = s.zones
      ∧ (hear ch s).life = s.life ∧ (hear ch s).level = s.level ∧ (hear ch s).peers = s.peers
      ∧ (hear ch s).schedule = s.schedule ∧ (hear ch s).timer = s.timer ∧ (hear ch s).photo = s.photo
      ∧ (hear ch s).scan = s.scan ∧ (hear ch s).converter = s.converter ∧ (hear ch s).console = s.console := by
  unfold hear
  (repeat' split) <;> simp

@[simp] theorem foreignStart_frame (t : Nat) :
    (foreignStart t s).pending = s.pending ∧ (foreignStart t s).now = s.now ∧ (foreignStart t s).resetPhase = s.resetPhase
      ∧ (foreignStart t s).due = s.due ∧ (foreignStart t s).draws = s.draws ∧ (foreignStart t s).straps = s.straps
      ∧ (foreignStart t s).eeprom = s.eeprom ∧ (foreignStart t s).loader = s.loader ∧ (foreignStart t s).settings = s.settings
      ∧ (foreignStart t s).input = s.input ∧ (foreignStart t s).buffers = s.buffers ∧ (foreignStart t s).encoder = s.encoder
      ∧ (foreignStart t s).patternSource = s.patternSource ∧ (foreignStart t s).flatLevel = s.flatLevel ∧ (foreignStart t s).zones = s.zones
      ∧ (foreignStart t s).life = s.life ∧ (foreignStart t s).level = s.level ∧ (foreignStart t s).peers = s.peers
      ∧ (foreignStart t s).schedule = s.schedule ∧ (foreignStart t s).timer = s.timer ∧ (foreignStart t s).photo = s.photo
      ∧ (foreignStart t s).scan = s.scan ∧ (foreignStart t s).converter = s.converter ∧ (foreignStart t s).console = s.console
      ∧ (foreignStart t s).faults = s.faults := by
  unfold foreignStart
  (repeat' split) <;> simp

@[simp] theorem noteStart_frame :
    (noteStart s).pending = s.pending ∧ (noteStart s).now = s.now ∧ (noteStart s).resetPhase = s.resetPhase
      ∧ (noteStart s).due = s.due ∧ (noteStart s).draws = s.draws ∧ (noteStart s).straps = s.straps
      ∧ (noteStart s).eeprom = s.eeprom ∧ (noteStart s).loader = s.loader ∧ (noteStart s).settings = s.settings
      ∧ (noteStart s).input = s.input ∧ (noteStart s).buffers = s.buffers ∧ (noteStart s).encoder = s.encoder
      ∧ (noteStart s).patternSource = s.patternSource ∧ (noteStart s).flatLevel = s.flatLevel ∧ (noteStart s).zones = s.zones
      ∧ (noteStart s).life = s.life ∧ (noteStart s).level = s.level ∧ (noteStart s).peers = s.peers
      ∧ (noteStart s).schedule = s.schedule ∧ (noteStart s).timer = s.timer ∧ (noteStart s).photo = s.photo
      ∧ (noteStart s).scan = s.scan ∧ (noteStart s).converter = s.converter ∧ (noteStart s).console = s.console
      ∧ (noteStart s).faults = s.faults := by
  unfold noteStart
  (repeat' split) <;> simp

/-! ### Machine/BusSend.lean -/

@[simp] theorem pushAnswer_frame (a : AnswerRecord) :
    (pushAnswer a s).pending = s.pending ∧ (pushAnswer a s).now = s.now ∧ (pushAnswer a s).resetPhase = s.resetPhase
      ∧ (pushAnswer a s).due = s.due ∧ (pushAnswer a s).draws = s.draws ∧ (pushAnswer a s).straps = s.straps
      ∧ (pushAnswer a s).eeprom = s.eeprom ∧ (pushAnswer a s).loader = s.loader ∧ (pushAnswer a s).settings = s.settings
      ∧ (pushAnswer a s).input = s.input ∧ (pushAnswer a s).buffers = s.buffers ∧ (pushAnswer a s).encoder = s.encoder
      ∧ (pushAnswer a s).patternSource = s.patternSource ∧ (pushAnswer a s).flatLevel = s.flatLevel ∧ (pushAnswer a s).zones = s.zones
      ∧ (pushAnswer a s).life = s.life ∧ (pushAnswer a s).level = s.level ∧ (pushAnswer a s).peers = s.peers
      ∧ (pushAnswer a s).schedule = s.schedule ∧ (pushAnswer a s).timer = s.timer ∧ (pushAnswer a s).photo = s.photo
      ∧ (pushAnswer a s).scan = s.scan ∧ (pushAnswer a s).converter = s.converter ∧ (pushAnswer a s).console = s.console := by
  unfold pushAnswer
  (repeat' split) <;> simp

@[simp] theorem answerLeaves_frame :
    (answerLeaves s).pending = s.pending ∧ (answerLeaves s).now = s.now ∧ (answerLeaves s).resetPhase = s.resetPhase
      ∧ (answerLeaves s).due = s.due ∧ (answerLeaves s).draws = s.draws ∧ (answerLeaves s).straps = s.straps
      ∧ (answerLeaves s).eeprom = s.eeprom ∧ (answerLeaves s).loader = s.loader ∧ (answerLeaves s).settings = s.settings
      ∧ (answerLeaves s).input = s.input ∧ (answerLeaves s).buffers = s.buffers ∧ (answerLeaves s).encoder = s.encoder
      ∧ (answerLeaves s).patternSource = s.patternSource ∧ (answerLeaves s).flatLevel = s.flatLevel ∧ (answerLeaves s).zones = s.zones
      ∧ (answerLeaves s).life = s.life ∧ (answerLeaves s).level = s.level ∧ (answerLeaves s).peers = s.peers
      ∧ (answerLeaves s).schedule = s.schedule ∧ (answerLeaves s).timer = s.timer ∧ (answerLeaves s).photo = s.photo
      ∧ (answerLeaves s).scan = s.scan ∧ (answerLeaves s).converter = s.converter ∧ (answerLeaves s).faults = s.faults := by
  unfold answerLeaves
  (repeat' (first | split | (dsimp only; split))) <;> simp

@[simp] theorem enterLead_frame :
    (enterLead s).pending = s.pending ∧ (enterLead s).now = s.now ∧ (enterLead s).resetPhase = s.resetPhase
      ∧ (enterLead s).due = s.due ∧ (enterLead s).draws = s.draws ∧ (enterLead s).straps = s.straps
      ∧ (enterLead s).eeprom = s.eeprom ∧ (enterLead s).loader = s.loader ∧ (enterLead s).settings = s.settings
      ∧ (enterLead s).input = s.input ∧ (enterLead s).buffers = s.buffers ∧ (enterLead s).encoder = s.encoder
      ∧ (enterLead s).patternSource = s.patternSource ∧ (enterLead s).flatLevel = s.flatLevel ∧ (enterLead s).zones = s.zones
      ∧ (enterLead s).life = s.life ∧ (enterLead s).level = s.level ∧ (enterLead s).peers = s.peers
      ∧ (enterLead s).schedule = s.schedule ∧ (enterLead s).timer = s.timer ∧ (enterLead s).photo = s.photo
      ∧ (enterLead s).scan = s.scan ∧ (enterLead s).converter = s.converter ∧ (enterLead s).console = s.console
      ∧ (enterLead s).faults = s.faults := by
  simp [enterLead]

@[simp] theorem endGap_frame :
    (endGap s).pending = s.pending ∧ (endGap s).now = s.now ∧ (endGap s).resetPhase = s.resetPhase
      ∧ (endGap s).due = s.due ∧ (endGap s).draws = s.draws ∧ (endGap s).straps = s.straps
      ∧ (endGap s).eeprom = s.eeprom ∧ (endGap s).loader = s.loader ∧ (endGap s).settings = s.settings
      ∧ (endGap s).input = s.input ∧ (endGap s).buffers = s.buffers ∧ (endGap s).encoder = s.encoder
      ∧ (endGap s).patternSource = s.patternSource ∧ (endGap s).flatLevel = s.flatLevel ∧ (endGap s).zones = s.zones
      ∧ (endGap s).life = s.life ∧ (endGap s).level = s.level ∧ (endGap s).peers = s.peers
      ∧ (endGap s).schedule = s.schedule ∧ (endGap s).timer = s.timer ∧ (endGap s).photo = s.photo
      ∧ (endGap s).scan = s.scan ∧ (endGap s).converter = s.converter ∧ (endGap s).console = s.console
      ∧ (endGap s).faults = s.faults := by
  unfold endGap
  (repeat' split) <;> simp

@[simp] theorem beginSending_frame (i : LineItem) (bs : List Byte) :
    (beginSending i bs s).pending = s.pending ∧ (beginSending i bs s).now = s.now ∧ (beginSending i bs s).resetPhase = s.resetPhase
      ∧ (beginSending i bs s).due = s.due ∧ (beginSending i bs s).draws = s.draws ∧ (beginSending i bs s).straps = s.straps
      ∧ (beginSending i bs s).eeprom = s.eeprom ∧ (beginSending i bs s).loader = s.loader ∧ (beginSending i bs s).settings = s.settings
      ∧ (beginSending i bs s).input = s.input ∧ (beginSending i bs s).buffers = s.buffers ∧ (beginSending i bs s).encoder = s.encoder
      ∧ (beginSending i bs s).patternSource = s.patternSource ∧ (beginSending i bs s).flatLevel = s.flatLevel ∧ (beginSending i bs s).zones = s.zones
      ∧ (beginSending i bs s).life = s.life ∧ (beginSending i bs s).level = s.level ∧ (beginSending i bs s).peers = s.peers
      ∧ (beginSending i bs s).schedule = s.schedule ∧ (beginSending i bs s).timer = s.timer ∧ (beginSending i bs s).photo = s.photo
      ∧ (beginSending i bs s).scan = s.scan ∧ (beginSending i bs s).converter = s.converter ∧ (beginSending i bs s).console = s.console
      ∧ (beginSending i bs s).faults = s.faults := by
  simp [beginSending]

@[simp] theorem sendNotice_frame (h : Handover) :
    (sendNotice h s).pending = s.pending ∧ (sendNotice h s).now = s.now ∧ (sendNotice h s).resetPhase = s.resetPhase
      ∧ (sendNotice h s).due = s.due ∧ (sendNotice h s).draws = s.draws ∧ (sendNotice h s).straps = s.straps
      ∧ (sendNotice h s).eeprom = s.eeprom ∧ (sendNotice h s).loader = s.loader ∧ (sendNotice h s).settings = s.settings
      ∧ (sendNotice h s).input = s.input ∧ (sendNotice h s).buffers = s.buffers ∧ (sendNotice h s).encoder = s.encoder
      ∧ (sendNotice h s).patternSource = s.patternSource ∧ (sendNotice h s).flatLevel = s.flatLevel ∧ (sendNotice h s).zones = s.zones
      ∧ (sendNotice h s).life = s.life ∧ (sendNotice h s).level = s.level ∧ (sendNotice h s).peers = s.peers
      ∧ (sendNotice h s).schedule = s.schedule ∧ (sendNotice h s).timer = s.timer ∧ (sendNotice h s).photo = s.photo
      ∧ (sendNotice h s).scan = s.scan ∧ (sendNotice h s).converter = s.converter ∧ (sendNotice h s).console = s.console
      ∧ (sendNotice h s).faults = s.faults := by
  simp [sendNotice]

@[simp] theorem sendAnswer_frame (a : AnswerRecord) :
    (sendAnswer a s).pending = s.pending ∧ (sendAnswer a s).now = s.now ∧ (sendAnswer a s).resetPhase = s.resetPhase
      ∧ (sendAnswer a s).due = s.due ∧ (sendAnswer a s).draws = s.draws ∧ (sendAnswer a s).straps = s.straps
      ∧ (sendAnswer a s).eeprom = s.eeprom ∧ (sendAnswer a s).loader = s.loader ∧ (sendAnswer a s).settings = s.settings
      ∧ (sendAnswer a s).input = s.input ∧ (sendAnswer a s).buffers = s.buffers ∧ (sendAnswer a s).encoder = s.encoder
      ∧ (sendAnswer a s).patternSource = s.patternSource ∧ (sendAnswer a s).flatLevel = s.flatLevel ∧ (sendAnswer a s).zones = s.zones
      ∧ (sendAnswer a s).life = s.life ∧ (sendAnswer a s).level = s.level ∧ (sendAnswer a s).peers = s.peers
      ∧ (sendAnswer a s).schedule = s.schedule ∧ (sendAnswer a s).timer = s.timer ∧ (sendAnswer a s).photo = s.photo
      ∧ (sendAnswer a s).scan = s.scan ∧ (sendAnswer a s).converter = s.converter ∧ (sendAnswer a s).console = s.console
      ∧ (sendAnswer a s).faults = s.faults := by
  simp [sendAnswer]

@[simp] theorem sendStatus_frame :
    (sendStatus s).pending = s.pending ∧ (sendStatus s).now = s.now ∧ (sendStatus s).resetPhase = s.resetPhase
      ∧ (sendStatus s).due = s.due ∧ (sendStatus s).draws = s.draws ∧ (sendStatus s).straps = s.straps
      ∧ (sendStatus s).eeprom = s.eeprom ∧ (sendStatus s).loader = s.loader ∧ (sendStatus s).settings = s.settings
      ∧ (sendStatus s).input = s.input ∧ (sendStatus s).buffers = s.buffers ∧ (sendStatus s).encoder = s.encoder
      ∧ (sendStatus s).patternSource = s.patternSource ∧ (sendStatus s).flatLevel = s.flatLevel ∧ (sendStatus s).zones = s.zones
      ∧ (sendStatus s).life = s.life ∧ (sendStatus s).level = s.level ∧ (sendStatus s).peers = s.peers
      ∧ (sendStatus s).schedule = s.schedule ∧ (sendStatus s).timer = s.timer ∧ (sendStatus s).photo = s.photo
      ∧ (sendStatus s).scan = s.scan ∧ (sendStatus s).converter = s.converter ∧ (sendStatus s).console = s.console
      ∧ (sendStatus s).faults = s.faults := by
  simp [sendStatus]

@[simp] theorem backToIdle_frame :
    (backToIdle s).pending = s.pending ∧ (backToIdle s).now = s.now ∧ (backToIdle s).resetPhase = s.resetPhase
      ∧ (backToIdle s).due = s.due ∧ (backToIdle s).draws = s.draws ∧ (backToIdle s).straps = s.straps
      ∧ (backToIdle s).eeprom = s.eeprom ∧ (backToIdle s).loader = s.loader ∧ (backToIdle s).settings = s.settings
      ∧ (backToIdle s).input = s.input ∧ (backToIdle s).buffers = s.buffers ∧ (backToIdle s).encoder = s.encoder
      ∧ (backToIdle s).patternSource = s.patternSource ∧ (backToIdle s).flatLevel = s.flatLevel ∧ (backToIdle s).zones = s.zones
      ∧ (backToIdle s).life = s.life ∧ (backToIdle s).level = s.level ∧ (backToIdle s).peers = s.peers
      ∧ (backToIdle s).schedule = s.schedule ∧ (backToIdle s).timer = s.timer ∧ (backToIdle s).photo = s.photo
      ∧ (backToIdle s).scan = s.scan ∧ (backToIdle s).converter = s.converter ∧ (backToIdle s).console = s.console
      ∧ (backToIdle s).faults = s.faults := by
  simp [backToIdle]

@[simp] theorem beginLead_frame :
    (beginLead s).pending = s.pending ∧ (beginLead s).now = s.now ∧ (beginLead s).resetPhase = s.resetPhase
      ∧ (beginLead s).due = s.due ∧ (beginLead s).draws = s.draws ∧ (beginLead s).straps = s.straps
      ∧ (beginLead s).eeprom = s.eeprom ∧ (beginLead s).loader = s.loader ∧ (beginLead s).settings = s.settings
      ∧ (beginLead s).input = s.input ∧ (beginLead s).buffers = s.buffers ∧ (beginLead s).encoder = s.encoder
      ∧ (beginLead s).patternSource = s.patternSource ∧ (beginLead s).flatLevel = s.flatLevel ∧ (beginLead s).zones = s.zones
      ∧ (beginLead s).life = s.life ∧ (beginLead s).level = s.level ∧ (beginLead s).peers = s.peers
      ∧ (beginLead s).schedule = s.schedule ∧ (beginLead s).timer = s.timer ∧ (beginLead s).photo = s.photo
      ∧ (beginLead s).scan = s.scan ∧ (beginLead s).converter = s.converter ∧ (beginLead s).console = s.console
      ∧ (beginLead s).faults = s.faults := by
  unfold beginLead
  (repeat' split) <;> simp

@[simp] theorem itemBack_frame :
    (itemBack s).pending = s.pending ∧ (itemBack s).now = s.now ∧ (itemBack s).resetPhase = s.resetPhase
      ∧ (itemBack s).due = s.due ∧ (itemBack s).draws = s.draws ∧ (itemBack s).straps = s.straps
      ∧ (itemBack s).eeprom = s.eeprom ∧ (itemBack s).loader = s.loader ∧ (itemBack s).settings = s.settings
      ∧ (itemBack s).input = s.input ∧ (itemBack s).buffers = s.buffers ∧ (itemBack s).encoder = s.encoder
      ∧ (itemBack s).patternSource = s.patternSource ∧ (itemBack s).flatLevel = s.flatLevel ∧ (itemBack s).zones = s.zones
      ∧ (itemBack s).life = s.life ∧ (itemBack s).level = s.level ∧ (itemBack s).peers = s.peers
      ∧ (itemBack s).schedule = s.schedule ∧ (itemBack s).timer = s.timer ∧ (itemBack s).photo = s.photo
      ∧ (itemBack s).scan = s.scan ∧ (itemBack s).converter = s.converter ∧ (itemBack s).console = s.console
      ∧ (itemBack s).faults = s.faults := by
  unfold itemBack
  (repeat' split) <;> simp

@[simp] theorem stopDriving_frame :
    (stopDriving s).pending = s.pending ∧ (stopDriving s).now = s.now ∧ (stopDriving s).resetPhase = s.resetPhase
      ∧ (stopDriving s).due = s.due ∧ (stopDriving s).draws = s.draws ∧ (stopDriving s).straps = s.straps
      ∧ (stopDriving s).eeprom = s.eeprom ∧ (stopDriving s).loader = s.loader ∧ (stopDriving s).settings = s.settings
      ∧ (stopDriving s).input = s.input ∧ (stopDriving s).buffers = s.buffers ∧ (stopDriving s).encoder = s.encoder
      ∧ (stopDriving s).patternSource = s.patternSource ∧ (stopDriving s).flatLevel = s.flatLevel ∧ (stopDriving s).zones = s.zones
      ∧ (stopDriving s).life = s.life ∧ (stopDriving s).level = s.level ∧ (stopDriving s).peers = s.peers
      ∧ (stopDriving s).schedule = s.schedule ∧ (stopDriving s).timer = s.timer ∧ (stopDriving s).photo = s.photo
      ∧ (stopDriving s).scan = s.scan ∧ (stopDriving s).converter = s.converter ∧ (stopDriving s).console = s.console
      ∧ (stopDriving s).faults = s.faults := by
  simp [stopDriving]

@[simp] theorem abandon_frame :
    (abandon s).pending = s.pending ∧ (abandon s).now = s.now ∧ (abandon s).resetPhase = s.resetPhase
      ∧ (abandon s).due = s.due ∧ (abandon s).draws = s.draws ∧ (abandon s).straps = s.straps
      ∧ (abandon s).eeprom = s.eeprom ∧ (abandon s).loader = s.loader ∧ (abandon s).settings = s.settings
      ∧ (abandon s).input = s.input ∧ (abandon s).buffers = s.buffers ∧ (abandon s).encoder = s.encoder
      ∧ (abandon s).patternSource = s.patternSource ∧ (abandon s).flatLevel = s.flatLevel ∧ (abandon s).zones = s.zones
      ∧ (abandon s).life = s.life ∧ (abandon s).level = s.level ∧ (abandon s).peers = s.peers
      ∧ (abandon s).schedule = s.schedule ∧ (abandon s).timer = s.timer ∧ (abandon s).photo = s.photo
      ∧ (abandon s).scan = s.scan ∧ (abandon s).converter = s.converter := by
  unfold abandon
  (repeat' (first | split | (dsimp only; split))) <;> simp

@[simp] theorem drawBackoff_frame :
    (drawBackoff s).pending = s.pending ∧ (drawBackoff s).now = s.now ∧ (drawBackoff s).resetPhase = s.resetPhase
      ∧ (drawBackoff s).due = s.due ∧ (drawBackoff s).draws = s.draws ∧ (drawBackoff s).straps = s.straps
      ∧ (drawBackoff s).eeprom = s.eeprom ∧ (drawBackoff s).loader = s.loader ∧ (drawBackoff s).settings = s.settings
      ∧ (drawBackoff s).input = s.input ∧ (drawBackoff s).buffers = s.buffers ∧ (drawBackoff s).encoder = s.encoder
      ∧ (drawBackoff s).patternSource = s.patternSource ∧ (drawBackoff s).flatLevel = s.flatLevel ∧ (drawBackoff s).zones = s.zones
      ∧ (drawBackoff s).life = s.life ∧ (drawBackoff s).level = s.level ∧ (drawBackoff s).peers = s.peers
      ∧ (drawBackoff s).schedule = s.schedule ∧ (drawBackoff s).timer = s.timer ∧ (drawBackoff s).photo = s.photo
      ∧ (drawBackoff s).scan = s.scan ∧ (drawBackoff s).converter = s.converter ∧ (drawBackoff s).console = s.console
      ∧ (drawBackoff s).faults = s.faults := by
  simp [drawBackoff]

@[simp] theorem collide_frame :
    (collide s).pending = s.pending ∧ (collide s).now = s.now ∧ (collide s).resetPhase = s.resetPhase
      ∧ (collide s).due = s.due ∧ (collide s).draws = s.draws ∧ (collide s).straps = s.straps
      ∧ (collide s).eeprom = s.eeprom ∧ (collide s).loader = s.loader ∧ (collide s).settings = s.settings
      ∧ (collide s).input = s.input ∧ (collide s).buffers = s.buffers ∧ (collide s).encoder = s.encoder
      ∧ (collide s).patternSource = s.patternSource ∧ (collide s).flatLevel = s.flatLevel ∧ (collide s).zones = s.zones
      ∧ (collide s).life = s.life ∧ (collide s).level = s.level ∧ (collide s).peers = s.peers
      ∧ (collide s).schedule = s.schedule ∧ (collide s).timer = s.timer ∧ (collide s).photo = s.photo
      ∧ (collide s).scan = s.scan ∧ (collide s).converter = s.converter := by
  unfold collide
  (repeat' (first | split | (dsimp only; split))) <;> simp

@[simp] theorem messageEnds_frame :
    (messageEnds s).pending = s.pending ∧ (messageEnds s).now = s.now ∧ (messageEnds s).resetPhase = s.resetPhase
      ∧ (messageEnds s).due = s.due ∧ (messageEnds s).draws = s.draws ∧ (messageEnds s).straps = s.straps
      ∧ (messageEnds s).eeprom = s.eeprom ∧ (messageEnds s).loader = s.loader ∧ (messageEnds s).settings = s.settings
      ∧ (messageEnds s).input = s.input ∧ (messageEnds s).buffers = s.buffers ∧ (messageEnds s).encoder = s.encoder
      ∧ (messageEnds s).patternSource = s.patternSource ∧ (messageEnds s).flatLevel = s.flatLevel ∧ (messageEnds s).zones = s.zones
      ∧ (messageEnds s).life = s.life ∧ (messageEnds s).level = s.level ∧ (messageEnds s).peers = s.peers
      ∧ (messageEnds s).schedule = s.schedule ∧ (messageEnds s).timer = s.timer ∧ (messageEnds s).photo = s.photo
      ∧ (messageEnds s).scan = s.scan ∧ (messageEnds s).converter = s.converter ∧ (messageEnds s).faults = s.faults := by
  unfold messageEnds
  (repeat' (first | split | (dsimp only; split))) <;> simp

/-! ### Machine/Orders.lean -/

@[simp] theorem answerOrder_frame (o : Order) (r : OrderResult) (bs : List Byte) :
    (answerOrder o r bs s).pending = s.pending ∧ (answerOrder o r bs s).now = s.now ∧ (answerOrder o r bs s).resetPhase = s.resetPhase
      ∧ (answerOrder o r bs s).due = s.due ∧ (answerOrder o r bs s).draws = s.draws ∧ (answerOrder o r bs s).straps = s.straps
      ∧ (answerOrder o r bs s).eeprom = s.eeprom ∧ (answerOrder o r bs s).loader = s.loader ∧ (answerOrder o r bs s).settings = s.settings
      ∧ (answerOrder o r bs s).input = s.input ∧ (answerOrder o r bs s).buffers = s.buffers ∧ (answerOrder o r bs s).encoder = s.encoder
      ∧ (answerOrder o r bs s).patternSource = s.patternSource ∧ (answerOrder o r bs s).flatLevel = s.flatLevel ∧ (answerOrder o r bs s).zones = s.zones
      ∧ (answerOrder o r bs s).life = s.life ∧ (answerOrder o r bs s).level = s.level ∧ (answerOrder o r bs s).peers = s.peers
      ∧ (answerOrder o r bs s).schedule = s.schedule ∧ (answerOrder o r bs s).timer = s.timer ∧ (answerOrder o r bs s).photo = s.photo
      ∧ (answerOrder o r bs s).scan = s.scan ∧ (answerOrder o r bs s).converter = s.converter ∧ (answerOrder o r bs s).console = s.console := by
  unfold answerOrder
  (repeat' split) <;> simp

end Sys2Proof.Machine
end

