-- ==== Sys2Proof/Laws/Effects.lean ====
section
/-! SUPPORT. What each shared operation does to the parts it changes, said once. -/

namespace Sys2Proof.Machine

variable (s : State)

/-! ### Fault Unit -/

@[simp] theorem State.count_faults (c : Counter) :
    (s.count c).faults = { s.faults with counters := s.faults.counters.raise c } := rfl

@[simp] theorem State.report_faults (k : FaultKind) (d : Nat) :
    (s.report k d).faults
      = s.faults.report { kind := k, frame := s.timer.number, state := s.life.state, detail := d } := rfl

/-- A report fills an empty record, and otherwise raises the overflow count. -/
theorem FaultUnit.report_cases (u : FaultUnit) (r : FaultRecord) :
    (u.record = none ∧ u.report r = { u with record := some r })
      ∨ (∃ q, u.record = some q ∧ u.report r = { u with overflow := satInc 255 u.overflow }) := by
  unfold FaultUnit.report
  cases h : u.record <;> simp

/-- A report keeps the counters. -/
@[simp] theorem FaultUnit.report_counters (u : FaultUnit) (r : FaultRecord) :
    (u.report r).counters = u.counters := by
  rcases u.report_cases r with ⟨-, h⟩ | ⟨q, -, h⟩ <;> rw [h]

/-! ### Wanted flags -/

@[simp] theorem State.wantStatus_bus : s.wantStatus.bus = { s.bus with statusWanted := true } := rfl

@[simp] theorem State.wantHandover_bus :
    s.wantHandover.bus = { s.bus with handoverWanted := true, statusWanted := true } := rfl

@[simp] theorem State.dropHandoverWanted_bus :
    s.dropHandoverWanted.bus = { s.bus with handoverWanted := false, statusWanted := true } := rfl

/-! ### Zones -/

@[simp] theorem zonesAtJoining_zones :
    (zonesAtJoining s).zones = s.zones.map (Zone.ifEnabled fun z =>
      z.enter s.timer.number (targetOf (s.peer z.neighbour))) := rfl

@[simp] theorem zonesToWait_zones : (zonesToWait s).zones = s.zones.map (Zone.ifEnabled Zone.toWait) := rfl

@[simp] theorem zonesAtMark_zones :
    (zonesAtMark s).zones = s.zones.map fun z =>
      { z.evaluate s.timer.number with shapeInUse := (z.evaluate s.timer.number).agreedShape } := rfl

/-! ### Level Controller -/

@[simp] theorem recomputeTarget_level :
    (recomputeTarget s).level = { s.level with
      scaleTarget := scaleTargetOf s.level.capacity s.settings.hdr.floor s.peers } := rfl

@[simp] theorem levelAtMark_level :
    (levelAtMark s).level = { s.level with
      sapp := slewed s.level.sapp s.level.scaleTarget
      dapp := s.level.record.value s.timer.number
      record := if s.level.record.complete s.timer.number then s.level.record.completed
        else s.level.record } := rfl

@[simp] theorem replaceLevel_level (r : LevelRecord) :
    (replaceLevel r s).level = { s.level with record := r, unset := false } := rfl

@[simp] theorem replaceLevel_bus (r : LevelRecord) :
    (replaceLevel r s).bus = { s.bus with statusWanted := true } := rfl

/-- C_own takes the value, and the rest of the Level Controller but the target stays. -/
@[simp] theorem setCapacity_level (c : Nat) :
    (setCapacity c s).level.capacity = c ∧ (setCapacity c s).level.sapp = s.level.sapp
      ∧ (setCapacity c s).level.record = s.level.record ∧ (setCapacity c s).level.unset = s.level.unset
      ∧ (setCapacity c s).level.dapp = s.level.dapp := by
  unfold setCapacity
  split <;> simp_all

/-! ### Lifecycle Controller -/

@[simp] theorem changeState_life (st : StationState) :
    (changeState st s).life = { s.life with state := st } := rfl

@[simp] theorem changeState_bus (st : StationState) :
    (changeState st s).bus = { s.bus with statusWanted := true } := rfl

@[simp] theorem changeState_level (st : StationState) :
    (changeState st s).level = { s.level with
      scaleTarget := scaleTargetOf s.level.capacity s.settings.hdr.floor s.peers } := rfl

@[simp] theorem enterJoining_life (r : Reason) :
    (enterJoining r s).life = { s.life with
      state := .joining, fade := 0
      fadeRamp := some { base := 0, start := s.handoverStart,
                         step := rampStep (s.settings.hdr.rampCode r), up := true }
      handover := some { kind := .join, start := s.handoverStart,
                         code := s.settings.hdr.rampCode r, reason := r } } := rfl

@[simp] theorem enterJoining_bus (r : Reason) :
    (enterJoining r s).bus = { s.bus with handoverWanted := true, statusWanted := true } := rfl

@[simp] theorem enterJoining_zones (r : Reason) :
    (enterJoining r s).zones = s.zones.map (Zone.ifEnabled fun z =>
      z.enter s.timer.number (targetOf (s.peer z.neighbour))) := rfl

@[simp] theorem enterLeaving_bus (r : Reason) :
    (enterLeaving r s).bus = { s.bus with handoverWanted := true, statusWanted := true } := rfl

/-- The leave's record and ramp. -/
@[simp] theorem enterLeaving_life (r : Reason) :
    (enterLeaving r s).life.state = .leaving
      ∧ (enterLeaving r s).life.handover = some
          { kind := .leave, start := s.handoverStart, code := s.settings.hdr.rampCode r, reason := r }
      ∧ (enterLeaving r s).life.fadeRamp = some
          { base := leaveBase s.life s.handoverStart, start := s.handoverStart,
            step := rampStep (s.settings.hdr.rampCode r), up := false }
      ∧ (enterLeaving r s).life.causes = s.life.causes
      ∧ (enterLeaving r s).life.holdDark = s.life.holdDark
      ∧ (enterLeaving r s).life.sleepPending = s.life.sleepPending
      ∧ (enterLeaving r s).life.listenCount = s.life.listenCount
      ∧ (enterLeaving r s).life.darkCount = s.life.darkCount := ⟨rfl, rfl, rfl, rfl, rfl, rfl, rfl, rfl⟩

@[simp] theorem startScan_scan :
    (startScan s).scan = if s.photo.inputs.any (·.enabled) then some (.begun s.now) else none := rfl

@[simp] theorem enterListen_life :
    (enterListen s).life = { s.life with state := .listen, listenCount := 0 } := by
  simp [enterListen]

@[simp] theorem enterListen_schedule : (enterListen s).schedule = { count := 0, running := true } := by
  simp [enterListen]

@[simp] theorem enterService_life : (enterService s).life = { s.life with state := .service } := rfl

@[simp] theorem enterService_schedule : (enterService s).schedule = { count := 0, running := true } := rfl

@[simp] theorem enterDark_life :
    (enterDark s).life = { s.life.outOfSky with state := .dark, darkCount := 0 } := rfl

@[simp] theorem enterDark_zones : (enterDark s).zones = s.zones.map (Zone.ifEnabled Zone.toWait) := rfl

@[simp] theorem enterSleep_life :
    (enterSleep s).life = { s.life.outOfSky with state := .sleep, sleepPending := false } := rfl

@[simp] theorem enterSleep_zones : (enterSleep s).zones = s.zones.map (Zone.ifEnabled Zone.toWait) := rfl

@[simp] theorem enterSleep_schedule :
    (enterSleep s).schedule = { s.schedule with running := false } := rfl

@[simp] theorem enterSleep_scan : (enterSleep s).scan = none := rfl

@[simp] theorem enterLit_life :
    (enterLit s).life = { s.life with state := .lit, fade := 64, fadeRamp := none, handover := none } := rfl

/-- An appearing cause joins the set; only in JOINING and LIT does it do more, and then it starts a leave. -/
theorem causeAppears_cases (c : Cause) :
    (s.life.causes.has c = true ∧ causeAppears c s = s)
      ∨ (s.life.causes.has c = false ∧ (s.life.state = .joining ∨ s.life.state = .lit)
          ∧ causeAppears c s
            = enterLeaving c.reason (s.setLife { s.life with causes := s.life.causes.put true c }))
      ∨ (s.life.causes.has c = false ∧ s.life.state ≠ .joining ∧ s.life.state ≠ .lit
          ∧ causeAppears c s = s.setLife { s.life with causes := s.life.causes.put true c }) := by
  unfold causeAppears
  split
  · exact .inl ⟨‹_›, rfl⟩
  · rename_i h
    simp only [Bool.not_eq_true] at h
    simp only [State.setLife_life, h, true_and, Bool.false_eq_true, false_and, false_or]
    split <;> simp_all

@[simp] theorem causeClears_life (c : Cause) :
    (causeClears c s).life = { s.life with causes := s.life.causes.put false c } := rfl

/-! ### Peer Manager -/

@[simp] theorem announce_bus : (announce s).bus = { s.bus with statusWanted := true } := rfl

@[simp] theorem announce_schedule : (announce s).schedule = { s.schedule with count := 0 } := rfl

@[simp] theorem clearPeers_peers : (clearPeers s).peers = clearedPeers := rfl

@[simp] theorem popQueue_bus : (popQueue s).bus = { s.bus with rxQueue := s.bus.rxQueue.tail } := rfl

/-! ### Frame Timer -/

@[simp] theorem timerAtMark_timer :
    (timerAtMark s).timer = { s.timer with
      number := s.timer.number + 1
      lastMark := some s.now
      expiry := some (s.now + s.periodNs)
      pace := some (s.now + 8 * Config.microsecond) } := rfl

@[simp] theorem straddleAtMark_bus :
    (straddleAtMark s).bus = { s.bus with
      markSince := true, assembly := s.bus.assembly.map fun a => { a with straddle := true } } := rfl

@[simp] theorem becomeStuck_timer :
    (becomeStuck s).timer = { s.timer with
      lineState := .stuck, lowSince := none, highSince := none } := rfl

@[simp] theorem recoverLine_timer :
    (recoverLine s).timer = { s.timer with lineState := .normal, highSince := none } := rfl

@[simp] theorem beginRaster_encoder :
    (beginRaster s).encoder = { s.encoder with
      raster := some { began := s.now, next := 0 }
      phaseX := (rasterPhase s.settings.hdr.dither s.timer.number).1
      phaseY := (rasterPhase s.settings.hdr.dither s.timer.number).2, sent := [] } := rfl

/-! ### Image Loader -/

/-- The reports made as the zone table is loaded touch the Fault Unit alone, and no counter. -/
theorem reportBadZones_faults (p : Nat → Bool) (l : List Nat) : ∀ t : State, ∃ f : FaultUnit,
    f.counters = t.faults.counters ∧
      l.foldl (fun t i => if p i then t.report .zoneConfig i else t) t = t.setFaults f := by
  induction l with
  | nil => exact fun t => ⟨t.faults, rfl, rfl⟩
  | cons a l ih =>
    intro t
    obtain ⟨f, hf, h⟩ := ih (if p a then t.report .zoneConfig a else t)
    refine ⟨f, hf.trans ?_, h.trans ?_⟩ <;> split <;> simp [State.report, State.setFaults]

/-- The zone table as loaded. -/
theorem loadZones_spec : ∃ f : FaultUnit, f.counters = s.faults.counters ∧
    loadZones s = (s.setZones (if s.loader.imageGood
      then (List.range 8).map fun i => (descriptorZone s.eeprom s.stn i).1
      else List.replicate 8 .disabled)).setFaults f := by
  unfold loadZones
  split
  · exact reportBadZones_faults (fun i => (descriptorZone s.eeprom s.stn i).2) (List.range 8)
      (s.setZones ((List.range 8).map fun i => (descriptorZone s.eeprom s.stn i).1))
  · exact ⟨s.faults, rfl, rfl⟩

@[simp] theorem loadZones_frame :
    (loadZones s).pending = s.pending ∧ (loadZones s).now = s.now
      ∧ (loadZones s).resetPhase = s.resetPhase ∧ (loadZones s).due = s.due
      ∧ (loadZones s).draws = s.draws ∧ (loadZones s).straps = s.straps
      ∧ (loadZones s).eeprom = s.eeprom ∧ (loadZones s).loader = s.loader
      ∧ (loadZones s).settings = s.settings ∧ (loadZones s).input = s.input
      ∧ (loadZones s).buffers = s.buffers ∧ (loadZones s).encoder = s.encoder
      ∧ (loadZones s).patternSource = s.patternSource ∧ (loadZones s).flatLevel = s.flatLevel
      ∧ (loadZones s).life = s.life ∧ (loadZones s).level = s.level ∧ (loadZones s).peers = s.peers
      ∧ (loadZones s).schedule = s.schedule ∧ (loadZones s).bus = s.bus
      ∧ (loadZones s).timer = s.timer ∧ (loadZones s).photo = s.photo
      ∧ (loadZones s).console = s.console := by
  obtain ⟨f, -, h⟩ := loadZones_spec s
  rw [h]
  simp

@[simp] theorem loadZones_zones :
    (loadZones s).zones = if s.loader.imageGood
      then (List.range 8).map fun i => (descriptorZone s.eeprom s.stn i).1
      else List.replicate 8 .disabled := by
  obtain ⟨f, -, h⟩ := loadZones_spec s
  rw [h]
  simp

@[simp] theorem loadZones_counters : (loadZones s).faults.counters = s.faults.counters := by
  obtain ⟨f, hf, h⟩ := loadZones_spec s
  rw [h]
  exact hf

@[simp] theorem handOut_settings :
    (handOut s).settings = match s.loader.header with
      | some h => loadedSettings s.eeprom h s.loader
      | none => fallbackSettings := rfl

@[simp] theorem startTimers_timer :
    (startTimers s).timer = { s.timer with
      expiry := some (s.now + s.periodNs), lastMark := none
      lowSince := if s.timer.lineLow then some s.now else none, lowOwn := false } := by
  cases h : s.settings.hasInput <;> simp [startTimers, h]

@[simp] theorem startTimers_input :
    (startTimers s).input = if s.settings.hasInput
      then { s.input with lossDeadline := some (s.now + s.lossTime) } else s.input := by
  cases h : s.settings.hasInput <;> simp [startTimers, h, State.lossTime, State.periodNs]

@[simp] theorem enterMeasure_frame :
    (enterMeasure s).pending = s.pending ∧ (enterMeasure s).now = s.now
      ∧ (enterMeasure s).resetPhase = s.resetPhase ∧ (enterMeasure s).due = s.due
      ∧ (enterMeasure s).draws = s.draws ∧ (enterMeasure s).straps = s.straps
      ∧ (enterMeasure s).eeprom = s.eeprom ∧ (enterMeasure s).loader = s.loader
      ∧ (enterMeasure s).settings = s.settings ∧ (enterMeasure s).input = s.input
      ∧ (enterMeasure s).buffers = s.buffers ∧ (enterMeasure s).encoder = s.encoder
      ∧ (enterMeasure s).patternSource = s.patternSource ∧ (enterMeasure s).flatLevel = s.flatLevel
      ∧ (enterMeasure s).zones = s.zones ∧ (enterMeasure s).peers = s.peers
      ∧ (enterMeasure s).timer = s.timer ∧ (enterMeasure s).console = s.console
      ∧ (enterMeasure s).faults = s.faults
      ∧ (enterMeasure s).photo.inputs = s.photo.inputs ∧ (enterMeasure s).converter = s.converter := by
  unfold enterMeasure
  dsimp only
  split <;> simp

/-- MEASURE is entered with an input enabled, and passed through to LISTEN with none. -/
@[simp] theorem enterMeasure_life :
    (enterMeasure s).life = if s.photo.inputs.any (·.enabled) then { s.life with state := .measure }
      else { s.life with state := .listen, listenCount := 0 } := by
  unfold enterMeasure
  dsimp only
  split <;> simp_all

@[simp] theorem enterMeasure_scan :
    (enterMeasure s).scan
      = if s.photo.inputs.any (·.enabled) then some (.begun s.now) else none := by
  unfold enterMeasure
  dsimp only
  split <;> simp_all

end Sys2Proof.Machine
end

