-- ==== Sys2Proof/Laws/Commands.lean ====
section
/-! SUPPORT. How a command runs, said once: what is due first, the clock, the transmitter's own moves, and
how an order is taken and answered. -/

namespace Sys2Proof.Machine

/-! ### The clock -/

/-- Time runs to the later of now and t. -/
@[simp] theorem advanceTo_now (t : Nat) (s : State) : (advanceTo t s).now = max t s.now := by
  unfold advanceTo
  split
  · omega
  · rw [State.setNow_now]; omega

/-- A time already past changes nothing. -/
theorem advanceTo_past {t : Nat} {s : State} (h : t ≤ s.now) : advanceTo t s = s := if_pos h

/-- The output link moves only the encoder. -/
theorem emitUntil_eq (s : State) (t : Nat) :
    emitUntil s t = { s with encoder := (emitUntil s t).encoder } := by
  unfold emitUntil
  (repeat' (first | split | (dsimp only; split))) <;> rfl

/-- The scan in progress moves only itself and the converter's codes. -/
theorem scanUntil_eq (s : State) (t : Nat) :
    scanUntil s t = { s with scan := (scanUntil s t).scan, converter := (scanUntil s t).converter } := by
  unfold scanUntil
  split <;> rfl

/-- The scan does not depend on the output link. -/
theorem scanUntil_setEncoder (s : State) (e : Encoder) (t : Nat) :
    scanUntil (s.setEncoder e) t = (scanUntil s t).setEncoder e := by
  unfold scanUntil
  rw [show (s.setEncoder e).scan = s.scan from rfl]
  split <;> rfl

/-- All that a running clock does: the link sends, the scan takes its samples, and nothing else moves. -/
theorem advanceTo_later {t : Nat} {s : State} (h : s.now < t) :
    advanceTo t s = { s with
      now := t, encoder := (emitUntil s t).encoder, scan := (scanUntil s t).scan,
      converter := (scanUntil s t).converter } := by
  unfold advanceTo
  rw [if_neg (by omega), emitUntil_eq,
    show ({ s with encoder := (emitUntil s t).encoder } : State)
      = s.setEncoder (emitUntil s t).encoder from rfl, scanUntil_setEncoder, scanUntil_eq]
  rfl

/-- With no scan in progress none is sampled. -/
theorem scanUntil_of_none {s : State} (h : s.scan = none) (t : Nat) : scanUntil s t = s := by
  simp [scanUntil, h]

/-- With no raster in flight and no scan in progress only the clock moves. -/
theorem advanceTo_of_nothing_running {t : Nat} {s : State} (h : s.encoder.raster = none)
    (hs : s.scan = none) : advanceTo t s = { s with now := max t s.now } := by
  unfold advanceTo
  split
  · rw [show max t s.now = s.now by omega]
  · rw [show emitUntil s t = s by simp [emitUntil, h], scanUntil_of_none hs,
      show max t s.now = t by omega]
    rfl

/-! ### Steps due -/

/-- Taking a due step makes no other due. -/
@[simp] theorem perform_due (d : DueStep) (s : State) : (perform d s).due = s.due := by
  cases d <;> simp only [perform]
  · split <;> simp
  · split <;> simp
  all_goals simp

/-- Taking a due step leaves supply, queue, clock, image and console as they were. -/
@[simp] theorem perform_frame (d : DueStep) (s : State) :
    (perform d s).pending = s.pending ∧ (perform d s).now = s.now
      ∧ (perform d s).resetPhase = s.resetPhase ∧ (perform d s).draws = s.draws
      ∧ (perform d s).straps = s.straps ∧ (perform d s).eeprom = s.eeprom
      ∧ (perform d s).loader = s.loader ∧ (perform d s).settings = s.settings
      ∧ (perform d s).scan = s.scan ∧ (perform d s).converter = s.converter
      ∧ (perform d s).console = s.console := by
  cases d <;> simp only [perform]
  · split <;> simp
  · split <;> simp
  all_goals simp

/-- A due step's own command leaves supply, queue, clock, image and console as they were. -/
@[simp] theorem takeDue_frame (d : DueStep) (s : State) :
    (takeDue d s).pending = s.pending ∧ (takeDue d s).now = s.now
      ∧ (takeDue d s).resetPhase = s.resetPhase ∧ (takeDue d s).draws = s.draws
      ∧ (takeDue d s).straps = s.straps ∧ (takeDue d s).eeprom = s.eeprom
      ∧ (takeDue d s).loader = s.loader ∧ (takeDue d s).settings = s.settings
      ∧ (takeDue d s).scan = s.scan ∧ (takeDue d s).converter = s.converter
      ∧ (takeDue d s).console = s.console := by
  unfold takeDue
  split <;> simp

/-- A part that runs takes the step at the head of the list out of it. -/
theorem takeDue_due {d : DueStep} {rest : List DueStep} {s : State} (hr : s.resetPhase = .running)
    (h : s.due = d :: rest) : (takeDue d s).due = rest := by
  simp [takeDue, hr, h]

/-- The steps of a list taken one after the other leave supply, queue, clock, image and console as they
were, and of a part that runs, whose list they are, none due. -/
theorem foldl_takeDue (l : List DueStep) : ∀ s : State,
    (l.foldl (fun t d => takeDue d t) s).pending = s.pending
      ∧ (l.foldl (fun t d => takeDue d t) s).now = s.now
      ∧ (l.foldl (fun t d => takeDue d t) s).resetPhase = s.resetPhase
      ∧ (l.foldl (fun t d => takeDue d t) s).draws = s.draws
      ∧ (l.foldl (fun t d => takeDue d t) s).straps = s.straps
      ∧ (l.foldl (fun t d => takeDue d t) s).eeprom = s.eeprom
      ∧ (l.foldl (fun t d => takeDue d t) s).loader = s.loader
      ∧ (l.foldl (fun t d => takeDue d t) s).settings = s.settings
      ∧ (l.foldl (fun t d => takeDue d t) s).scan = s.scan
      ∧ (l.foldl (fun t d => takeDue d t) s).converter = s.converter
      ∧ (l.foldl (fun t d => takeDue d t) s).console = s.console
      ∧ (s.resetPhase = .running → s.due = l →
          (l.foldl (fun t d => takeDue d t) s).due = []) := by
  induction l with
  | nil => intro s; simp
  | cons d l ih =>
    intro s
    have := ih (takeDue d s)
    simp only [takeDue_frame] at this
    obtain ⟨h1, h2, h3, h4, h5, h6, h7, h8, h9, h10, h11, h12⟩ := this
    exact ⟨h1, h2, h3, h4, h5, h6, h7, h8, h9, h10, h11,
      fun hr hd => h12 hr (takeDue_due hr hd)⟩

/-- The RESTART's reset: what it keeps, and that it runs with nothing due. -/
@[simp] theorem restartReset_frame (s : State) :
    (restartReset s).pending = s.pending ∧ (restartReset s).now = s.now
      ∧ (restartReset s).resetPhase = .running ∧ (restartReset s).due = []
      ∧ (restartReset s).draws = s.draws ∧ (restartReset s).straps = s.straps
      ∧ (restartReset s).eeprom = s.eeprom ∧ (restartReset s).faults = s.faults
      ∧ (restartReset s).converter = s.converter
      ∧ (restartReset s).console = .reset := by
  simp [restartReset, resetBlocks, State.reset]

/-- A calm state has nothing to settle. -/
theorem settle_of_calm {s : State} (h : s.calm) : settle s = s := by
  simp [settle, h.2.1, h.2.2]

/-- The first step due is taken as its own command takes it, and the rest is settled after it. -/
theorem settle_of_due {d : DueStep} {rest : List DueStep} {s : State} (hr : s.resetPhase = .running)
    (h : s.due = d :: rest) : settle s = settle (takeDue d s) := by
  simp only [settle, h, takeDue_due hr h, List.foldl_cons]

/-- With no step due, the reset of a RESTART that has been released takes effect. -/
theorem settle_of_restart {s : State} (h : s.due = []) (hr : s.restartDue = true) :
    settle s = restartReset s := by
  simp [settle, h, hr]

/-- Settling a part that runs leaves it calm. -/
theorem settle_calm {s : State} (h : s.resetPhase = .running) : (settle s).calm := by
  have hf := foldl_takeDue s.due s
  unfold settle
  dsimp only
  split
  · exact ⟨by simp, by simp, by simp [State.restartDue, Console.reset]⟩
  · rename_i hr
    exact ⟨hf.2.2.1.trans h, hf.2.2.2.2.2.2.2.2.2.2.2 h rfl, by simpa using hr⟩

/-- Settling keeps the queue, the clock, the EEPROM, the straps and the converter's codes. -/
@[simp] theorem settle_frame (s : State) :
    (settle s).pending = s.pending ∧ (settle s).now = s.now ∧ (settle s).draws = s.draws
      ∧ (settle s).straps = s.straps ∧ (settle s).eeprom = s.eeprom
      ∧ (settle s).converter = s.converter := by
  have hf := foldl_takeDue s.due s
  unfold settle
  dsimp only
  split <;> simp [hf]

/-! ### Running a command -/

/-- In a calm state a command has its effect, and then the transmitter moves. -/
theorem whenRunning_of_calm {s : State} (h : s.calm) (f : State → State) :
    whenRunning f s = refreshTx (f s) := by
  simp [whenRunning, h.1, settle_of_calm h]

/-- A part that does not run does nothing. -/
theorem whenRunning_of_not_running {s : State} (h : s.resetPhase ≠ .running) (f : State → State) :
    whenRunning f s = s := if_neg h

/-- An outside event in a calm state. -/
theorem atTime_of_calm {s : State} (h : s.calm) (t : Nat) (f : State → State) :
    atTime t f s = refreshTx (f (advanceTo t s)) := whenRunning_of_calm h _

/-- A running time that ends in a calm state. -/
theorem atDeadline_of_calm {s : State} {deadline : State → Option Nat} {t : Nat} (h : s.calm)
    (hd : deadline s = some t) (f : State → State) :
    atDeadline deadline f s = refreshTx (f (advanceTo t s)) := by
  unfold atDeadline
  rw [whenRunning_of_calm h]
  simp [hd]

/-- A due step that its own command takes. -/
theorem takeDue_of_mem {d : DueStep} {s : State} (hr : s.resetPhase = .running) (h : d ∈ s.due) :
    takeDue d s = refreshTx (perform d (s.setDue (s.due.erase d))) := if_pos ⟨hr, h⟩

/-- A step that is not due is not taken. -/
theorem takeDue_of_not_mem {d : DueStep} {s : State} (h : d ∉ s.due) : takeDue d s = s :=
  if_neg fun k => h k.2

/-! ### The transmitter -/

/-- The transmitter's own moves: out of IDLE when an item is sendable, back to it when none is, and no
other. -/
theorem refreshTx_cases (s : State) :
    refreshTx s = s
      ∨ (s.bus.txState = .idle ∧ s.anySendable = true
          ∧ refreshTx s = s.setBus { s.bus with txState := .gap, txSince := s.now })
      ∨ ((s.bus.txState = .gap ∨ s.bus.txState = .backoff ∨ s.bus.txState = .lead)
          ∧ s.anySendable = false
          ∧ refreshTx s = s.setBus { s.bus with
              txState := .idle, txSince := s.now, backoff := s.bus.backoffLeft s.now s.bitTime }) := by
  unfold refreshTx
  cases s.bus.txState <;> cases s.anySendable <;> simp

/-- The transmitter's own moves leave the receive half, the answers and the generator alone. -/
@[simp] theorem refreshTx_bus (s : State) :
    (refreshTx s).bus.assembly = s.bus.assembly ∧ (refreshTx s).bus.rxQueue = s.bus.rxQueue
      ∧ (refreshTx s).bus.statusWanted = s.bus.statusWanted
      ∧ (refreshTx s).bus.handoverWanted = s.bus.handoverWanted
      ∧ (refreshTx s).bus.answers = s.bus.answers ∧ (refreshTx s).bus.item = s.bus.item
      ∧ (refreshTx s).bus.message = s.bus.message ∧ (refreshTx s).bus.attempts = s.bus.attempts
      ∧ (refreshTx s).bus.gap = s.bus.gap ∧ (refreshTx s).bus.lastStart = s.bus.lastStart
      ∧ (refreshTx s).bus.lfsr = s.bus.lfsr := by
  rcases refreshTx_cases s with h | ⟨-, -, h⟩ | ⟨-, -, h⟩ <;> rw [h] <;> simp

/-! ### Orders -/

/-- The order at the head of the queue is taken: carried when it addresses the station, else dropped. -/
theorem withOrder_of_head {s : State} {o : Order} {accepts : Order → Bool}
    {carry : Message → Order → State → State} (ho : s.orderAtHead = some o) (ha : accepts o = true) :
    ∃ m rest, s.bus.rxQueue = m :: rest ∧ m.kind = .order ∧ readOrder m.payload = some o ∧
      withOrder accepts carry s =
        if o.addresses s.stn then carry m o (popQueue s) else popQueue s := by
  unfold State.orderAtHead at ho
  cases hq : s.bus.rxQueue with
  | nil => simp [hq] at ho
  | cons m rest =>
    rw [hq] at ho
    dsimp only at ho
    split at ho
    · rename_i hc
      refine ⟨m, rest, rfl, hc.1, ho, ?_⟩
      simp only [withOrder, hq, if_pos hc, ho, if_pos ha]
      rfl
    · simp at ho

/-- An order that is not answered leaves the state as it is. -/
theorem answerOrder_of_group {o : Order} {s : State} (h : o.individual s = false) (r : OrderResult)
    (bs : List Byte) : answerOrder o r bs s = s := by simp [answerOrder, h]

/-- An answer with room in the FIFO goes to its tail. -/
theorem pushAnswer_of_room {a : AnswerRecord} {s : State} (h : s.bus.answers.length < answerRoom) :
    pushAnswer a s = s.setBus { s.bus with answers := s.bus.answers ++ [a] } :=
  if_neg (Nat.not_le.2 h)

/-- An answer without room is dropped, counted and reported. -/
theorem pushAnswer_of_full {a : AnswerRecord} {s : State} (h : answerRoom ≤ s.bus.answers.length) :
    pushAnswer a s = (s.count .answerDrop).report .answerOverflow a.code := if_pos h

end Sys2Proof.Machine
end

