-- ==== Sys2Proof/Laws/Memory.lean ====
section
/-! SUPPORT. The EEPROM's laws: reads after writes, and that every operation on it keeps the canonical
form. -/

namespace Sys2Proof.Machine

/-- A byte read where one was just written is that byte. -/
theorem Memory.read_write_same (m : Memory) (k : Nat) (v : Byte) (h : m.wf) :
    (m.write k v).read k = v := by
  induction m with
  | nil => by_cases hv : v = Config.blankByte <;> simp [Memory.write, Memory.read, hv]
  | cons c m ih =>
    obtain ⟨a, b⟩ := c
    obtain ⟨hp, hb⟩ := h
    have hm : Memory.wf m := ⟨(List.pairwise_cons.1 hp).2, fun c hc => hb c (List.mem_cons_of_mem _ hc)⟩
    have ha := (List.pairwise_cons.1 hp).1
    have absent : ∀ (l : Memory), (∀ c ∈ l, k < c.1) → Memory.read l k = Config.blankByte := by
      intro l hl
      induction l with
      | nil => rfl
      | cons d l ihl =>
        have := hl d (List.mem_cons_self ..)
        simp only [Memory.read]
        rw [if_neg (by omega)]
        exact ihl fun c hc => hl c (List.mem_cons_of_mem _ hc)
    unfold Memory.write
    split
    · rename_i hk
      split
      · rename_i hv
        rw [absent _ ?_, hv]
        intro c hc
        rcases List.mem_cons.1 hc with rfl | hc
        · exact hk
        · exact Nat.lt_trans hk (ha c hc)
      · simp [Memory.read]
    · split
      · rename_i hk
        subst hk
        split
        · rename_i hv
          rw [absent _ ha, hv]
        · simp [Memory.read]
      · rename_i h1 h2
        simp only [Memory.read]
        rw [if_neg (by omega)]
        exact ih hm

/-- A write leaves every other byte as it was. -/
theorem Memory.read_write_other (m : Memory) (k j : Nat) (v : Byte) (h : m.wf) (hj : j ≠ k) :
    (m.write k v).read j = m.read j := by
  induction m with
  | nil => by_cases hv : v = Config.blankByte <;> simp [Memory.write, Memory.read, hv, Ne.symm hj]
  | cons c m ih =>
    obtain ⟨a, b⟩ := c
    have hm : Memory.wf m :=
      ⟨(List.pairwise_cons.1 h.1).2, fun c hc => h.2 c (List.mem_cons_of_mem _ hc)⟩
    unfold Memory.write
    split
    · split <;> simp [Memory.read, Ne.symm hj]
    · split
      · rename_i hk
        subst hk
        split <;> simp [Memory.read, Ne.symm hj]
      · simp only [Memory.read]
        split
        · rfl
        · exact ih hm

/-- The addresses a write leaves listed. -/
theorem Memory.mem_write (m : Memory) (k : Nat) (v : Byte) (c : Host.Cell) (h : c ∈ m.write k v) :
    c ∈ m ∨ (c = (k, v) ∧ v ≠ Config.blankByte) := by
  induction m with
  | nil =>
    simp only [Memory.write] at h
    split at h <;> simp_all
  | cons d m ih =>
    obtain ⟨a, b⟩ := d
    unfold Memory.write at h
    split at h
    · split at h
      · exact .inl h
      · rcases List.mem_cons.1 h with rfl | h
        · exact .inr ⟨rfl, ‹_›⟩
        · exact .inl h
    · split at h
      · split at h
        · simp [h]
        · rcases List.mem_cons.1 h with rfl | h <;> simp_all
      · rcases List.mem_cons.1 h with rfl | h
        · simp
        · rcases ih h with h | h
          · simp [h]
          · exact .inr h

/-- A write keeps the canonical form. -/
theorem Memory.wf_write (m : Memory) (k : Nat) (v : Byte) (h : m.wf) : (m.write k v).wf := by
  refine ⟨?_, fun c hc => ?_⟩
  · induction m with
    | nil =>
      simp only [Memory.write]
      split <;> simp
    | cons d m ih =>
      obtain ⟨a, b⟩ := d
      have hp := List.pairwise_cons.1 h.1
      have hm : Memory.wf m := ⟨hp.2, fun c hc => h.2 c (List.mem_cons_of_mem _ hc)⟩
      have below : ∀ {x : Nat}, x ≤ a → ∀ c ∈ m, x < c.1 := fun hx c hc =>
        Nat.lt_of_le_of_lt hx (hp.1 c hc)
      unfold Memory.write
      split
      · rename_i hk
        split
        · exact h.1
        · refine List.pairwise_cons.2 ⟨fun c hc => ?_, h.1⟩
          rcases List.mem_cons.1 hc with rfl | hc
          · exact hk
          · exact below (Nat.le_of_lt hk) c hc
      · split
        · rename_i hk
          subst hk
          split
          · exact hp.2
          · exact List.pairwise_cons.2 ⟨below (Nat.le_refl _), hp.2⟩
        · refine List.pairwise_cons.2 ⟨fun c hc => ?_, ih hm⟩
          rcases Memory.mem_write m k v c hc with hc | ⟨rfl, -⟩
          · exact hp.1 c hc
          · show a < k
            omega
  · rcases Memory.mem_write m k v c hc with hc | ⟨rfl, hv⟩
    · exact h.2 c hc
    · exact hv

/-- Writing bytes at rising addresses keeps the canonical form. -/
theorem Memory.wf_writeBlock (bs : List Byte) : ∀ (m : Memory) (a : Nat), m.wf → (m.writeBlock a bs).wf := by
  induction bs with
  | nil => exact fun _ _ h => h
  | cons b bs ih => exact fun m a h => ih _ _ (Memory.wf_write m a b h)

/-- A block write leaves the bytes outside the block as they were. -/
theorem Memory.read_writeBlock_outside (bs : List Byte) : ∀ (m : Memory) (a j : Nat), m.wf →
    j < a ∨ a + bs.length ≤ j → (m.writeBlock a bs).read j = m.read j := by
  induction bs with
  | nil => exact fun _ _ _ _ _ => rfl
  | cons b bs ih =>
    intro m a j h hj
    simp only [List.length_cons] at hj
    rw [Memory.writeBlock, ih _ _ _ (Memory.wf_write m a b h) (by omega),
      Memory.read_write_other m a j b h (by omega)]

/-- A block write puts the block's bytes at its addresses. -/
theorem Memory.read_writeBlock_inside (bs : List Byte) : ∀ (m : Memory) (a i : Nat), m.wf →
    (hi : i < bs.length) → (m.writeBlock a bs).read (a + i) = bs[i] := by
  induction bs with
  | nil => intro m a i _ hi; simp at hi
  | cons b bs ih =>
    intro m a i h hi
    cases i with
    | zero =>
      rw [Memory.writeBlock, Memory.read_writeBlock_outside _ _ _ _ (Memory.wf_write m a b h) (by omega)]
      exact Memory.read_write_same m a b h
    | succ i =>
      have := ih (m.write a b) (a + 1) i (Memory.wf_write m a b h) (by simpa using hi)
      rw [Memory.writeBlock, show a + (i + 1) = a + 1 + i by omega, this]
      rfl

/-- Reset's memory, with nothing written, is in canonical form. -/
theorem Memory.wf_reset : State.reset.eeprom.wf := by decide

/-- The end of a STORE's transfer keeps the canonical form. -/
theorem endTransfer_wf (s : State) (h : s.eeprom.wf) : (endTransfer s).eeprom.wf := by
  unfold endTransfer
  split
  · exact h
  · exact Memory.wf_writeBlock _ _ _ h

/-- The clearing of the store-in-flight flag keeps the canonical form. -/
theorem clearStoreFlag_wf (s : State) (h : s.eeprom.wf) : (clearStoreFlag s).eeprom.wf :=
  endTransfer_wf s h

/-- A loss of supply keeps the canonical form. -/
theorem losePower_wf (s : State) (h : s.eeprom.wf) : (losePower s).eeprom.wf := by
  have hc : (cutWrites s).wf := by
    unfold cutWrites
    cases s.loader.cycle <;> cases s.loader.transfer
    · exact h
    · exact Memory.wf_writeBlock _ _ _ h
    · exact Memory.wf_writeBlock _ _ _ h
    · exact Memory.wf_writeBlock _ _ _ (Memory.wf_writeBlock _ _ _ h)
  unfold losePower
  split
  · exact hc
  · exact h

end Sys2Proof.Machine
end

