-- ==== Sys2Proof/WellFormed.lean ====
section
/-! DEFINITION. Which commands are well formed: the bounds that a command's type does not carry. -/

namespace Sys2Proof

/-- A character begins with its start bit, which is 0: it is found by that bit's falling edge (R104). -/
def CharacterBits.started (c : CharacterBits) : Bool := !c.getLsbD 0

/-- A peer entry's number is 1..31 (R87). -/
def stationNumberOk (n : Nat) : Bool := decide (1 ≤ n) && decide (n ≤ 31)

/-- The check of a command before it is sent. -/
def Instr.wellFormed : Instr → Bool
  | .characterReceived _ c => c.started
  | .peerLost n => stationNumberOk n
  | .peerPurge n => stationNumberOk n
  | .powerOn _ | .pinReset _ | .resetRelease _ _ | .eepromAcknowledge _ | .eepromReadyTimeout
  | .headerCheck _ | .sectionCheck _ | .loadFinished _ | .frameLineFall _ | .frameLineRise _
  | .frameTimerExpiry | .assertionEnd | .lineStuck | .lineRecovery | .pacePulseEnd | .rasterDone
  | .listenPeriodEnd | .rejoin | .announcementDue | .holdLimitPassed | .inputLossTimeout
  | .frameStart _ | .line _ _ | .frameEnd _ | .scanComplete _ | .assemblerTimeout
  | .statusApplied | .joinApplied | .leaveApplied | .orderTooShort | .orderUnknown | .level | .dark
  | .light | .pattern | .readStartRecord | .readCounters | .readPeerEntry | .readZone
  | .readFaultRecord | .readPhotometer | .readLevels | .clear | .store | .restart | .restartReset
  | .sleep | .wake | .storeTransferEnd _ | .storeFlagClear | .gapElapsed | .backoffElapsed
  | .leadStart | .collision _ | .messageSent | .startBit _ | .powerLost _ => true

end Sys2Proof
end

