-- ==== Sys2Proof/Tests/Slice0.lean ====
section
/-! SUPPORT. Tests: the smoke test of WellFormed, one-step tests whose results are the worked sequences' and tables' of
the spec, and for every statement with hypotheses a witness: states and operands that meet them, clause by clause. -/

namespace Sys2Proof.Tests

open Sys2Proof Sys2Proof.Machine

/-! ### Builders -/

/-- The state after a command; the state itself where there is none. -/
def after (c : Instr) (s : State) : State :=
  match exec c s with
  | .next t => t
  | .fault _ => s
  | .refused _ => s

/-- Straps that give a station number. -/
def strapsOf (n : Fin 32) : Straps := { stn := n, long := false, mirx := false, flipy := false, svc := false }

/-- Station n held after power-on. -/
def held (n : Fin 32) : State := State.reset.setStraps (strapsOf n)

/-- The header of the worked sequences: L = 8, join and leave code 3, fault code 4, loss code 2, floor 1024. -/
def header : Header :=
  { Header.before with
    outW := 64, outH := 64, inW := 2, inH := 2, nx := 3, ny := 3, joinCode := 3, leaveCode := 3,
    faultCode := 4, lossCode := 2, floor := 1024, holdLimit := 4, listenTime := 120, divisor := 7,
    enables := [true, true, true, true] }

/-- A peer heard in a state with a capacity and a black. -/
def heardPeer (st : StationState) (capacity black : Nat) : PeerEntry :=
  { PeerEntry.cleared with state := .live, reported := some st, capacity := capacity, black := black }

/-- A zone toward a neighbour, SHARED. -/
def sharedZone (n : Nat) : Zone :=
  { Zone.disabled with
    enabled := true, neighbour := n, configuredShape := 8, agreedShape := 8, shapeInUse := 8,
    state := .shared, m := 0 }

/-- Station 3 of the worked pixel, LIT after mark 992 (01 and 02, worked sequences). -/
def lit : State :=
  { held 3 with
    resetPhase := .running
    bus := .reset 0 6145
    settings := { Settings.before with
      hdr := header, period := some 16667, hasInput := true, blackGain := 268 }
    life := { Lifecycle.reset with state := .lit, fade := 64 }
    timer := { FrameTimer.reset with
      number := 992, unset := false, lastMark := some 0, expiry := some 16667000 }
    level := { LevelControl.reset with
      capacity := 3000, unset := false, scaleTarget := 28398, sapp := 28398 }
    peers := (clearedPeers.set 3 (heardPeer .lit 2600 180)).set 1 (heardPeer .lit 2800 150)
    zones := ((List.replicate 8 Zone.disabled).set 1 (sharedZone 4)).set 2 (sharedZone 2)
    schedule := { count := 0, running := true }
    photo := { Photometer.reset with
      inputs := List.replicate 4 { enabled := true, average := 0, streak := 0 }
      capacity := 3000, black := 160 }
    scan := some (.begun 0) }

/-- The same in another station state. -/
def inState (st : StationState) (s : State) : State := s.setLife { s.life with state := st }

/-- A lifecycle out of the sky. -/
def outside (st : StationState) (s : State) : State :=
  s.setLife { s.life with state := st, fade := 0, fadeRamp := none, handover := none }

/-- The same in JOINING since frame 992, its fade starting at 1000. -/
def joining : State :=
  lit.setLife { lit.life with
    state := .joining, fade := 0,
    fadeRamp := some { base := 0, start := 1000, step := 8, up := true },
    handover := some { kind := .join, start := 1000, code := 3, reason := .start } }

/-- Station 4's leave of the worked sequence, here the own station's: start 1000, code 4. -/
def leaving : State :=
  lit.setLife { lit.life with
    state := .leaving, fade := 64,
    fadeRamp := some { base := 64, start := 1000, step := 4, up := false },
    handover := some { kind := .leave, start := 1000, code := 4, reason := .lampLow } }

/-- With the receive queue holding these messages. -/
def queued (ms : List Message) (s : State) : State := s.setBus { s.bus with rxQueue := ms }

/-- A message that waits at the head of the queue. -/
def message (kind : MsgKind) (sender : Nat) (payload : List Byte) : Message :=
  { kind := kind, sender := sender, payload := payload, straddle := false }

/-- An order from the console to this station alone, or to all (R178). -/
def orderTo (mask code : Byte) (args : List Byte) : Message :=
  message .order 0 ([0x01, 0xF4, 3, mask, code] ++ args)

/-- The order that `orderTo` carries. -/
def orderOf (mask code : Nat) (args : List Byte) : Order :=
  { serial := 500, target := 3, mask := mask, code := code, args := args }

/-- The state with an order to it alone at the head of its queue. -/
def ordered (code : Byte) (args : List Byte) (s : State) : State := queued [orderTo 31 code args] s

/-- A STATUS reporting LIT with capacity 2600 and black 180, serial 40 and full level, no zones (R107). -/
def statusBytes (frame : Nat) : List Byte :=
  bytes2 frame ++ [2] ++ bytes2 2600 ++ bytes2 180 ++ [0, 0, 0, 0, 0] ++ bytes2 40 ++ bytes2 1024
    ++ bytes2 1024 ++ bytes2 992 ++ bytes2 0 ++ [0]

/-- The LEAVE of the worked seam: frame 992, start 1000, code 4, LAMP_LOW, capacity 310 (R108). -/
def leaveBytes : List Byte := bytes2 992 ++ bytes2 1000 ++ [4, 2] ++ bytes2 310

/-- The transmitter in a state, with items wanted. -/
def transmitting (st : TxState) (status notice : Bool) (s : State) : State :=
  s.setBus { s.bus with txState := st, statusWanted := status, handoverWanted := notice }

/-- Three buffers in these states, with rising sequences from 41. -/
def buffersOf (a b c : BufferState) : List FrameBuffer :=
  [{ FrameBuffer.reset with state := a, sequence := 41 },
   { FrameBuffer.reset with state := b, sequence := 42 },
   { FrameBuffer.reset with state := c, sequence := 43 }]

/-- A frame in progress in buffer 0 with this many lines. -/
def receiving (lines : Nat) (short : Bool) : State :=
  (lit.setBuffers (buffersOf .filling .shown .free)).setInput { lit.input with
    frame := some { buffer := 0, sequence := 41, lines := lines, short := short },
    startedFrames := 41, lossDeadline := some 50001000 }

/-- The codes of a scan of four inputs, each reading the same in every round. -/
def readings (a b black thermal : Nat) : List (BitVec 12) :=
  (List.range 16).flatMap fun _ =>
    [BitVec.ofNat 12 a, BitVec.ofNat 12 b, BitVec.ofNat 12 black, BitVec.ofNat 12 thermal]

/-- A pixel. -/
def pixel (n : Nat) : Pixel := { red := BitVec.ofNat 10 n, green := 0, blue := 0 }

/-- An image's first 64 bytes with the magic, the version and a matching header sum: 62 and 63 hold the sum
of the 31 words before them. -/
def headerImage : Memory :=
  let m := Memory.writeBlock [] 0 ([0x6A, 0x24, 1, 7, 0, 64, 0, 64, 0, 16, 0, 16, 2, 2] : List Byte)
  m.writeBlock 62 (bytes2 (m.sum 0 31))

/-- The load at a phase, in START. -/
def loading (phase : LoadPhase) (m : Memory) : State :=
  let s := (outside .start lit).setEeprom m
  s.setLoader { s.loader with phase := phase, header := some header }

/-- A write of 32 bytes 0x11 at 0x0060. -/
def write60 : StoreWrite := { address := 0x60, bytes := List.replicate 32 0x11 }

/-- With a write still on the I2C line. -/
def transferring (s : State) : State :=
  s.setLoader { s.loader with storeInFlight := true, transfer := some write60 }

/-- With steps due. -/
def withDue (ds : List DueStep) (s : State) : State := s.setDue ds

/-- With peer 4 in this entry. -/
def withPeer4 (e : PeerEntry) (s : State) : State := s.setPeer 4 e

/-! ### WellFormed -/

theorem test_wellFormed_refuses_character_without_start_bit :
    (Instr.characterReceived 0 1).wellFormed = false
      ∧ (Instr.characterReceived 0 0b11111111111).wellFormed = false := by decide

theorem test_wellFormed_refuses_peer_numbers :
    (Instr.peerLost 0).wellFormed = false ∧ (Instr.peerLost 32).wellFormed = false
      ∧ (Instr.peerPurge 0).wellFormed = false ∧ (Instr.peerPurge 32).wellFormed = false := by decide

theorem test_wellFormed_admits :
    (Instr.characterReceived 0 0b11000001000).wellFormed = true ∧ (Instr.peerLost 1).wellFormed = true
      ∧ (Instr.peerPurge 31).wellFormed = true ∧ (Instr.level).wellFormed = true := by decide

/-! ### One step of each command -/

/-- R164, R166. -/
theorem test_powerOn_holds_the_part :
    (after (.powerOn 5) (lit.setResetPhase .unpowered)).resetPhase = .held
      ∧ (after (.powerOn 5) (lit.setResetPhase .unpowered)).loader.record.resetCause = .power := by decide

/-- R126, R140, R164. -/
theorem test_pinReset_clears_the_number :
    (after (.pinReset 5) lit).timer.number = 0 ∧ (after (.pinReset 5) lit).timer.unset = true
      ∧ (after (.pinReset 5) lit).loader.record.resetCause = .pin := by decide

/-- R122: station 3 seeds 6145 and station 7 seeds 14337. -/
theorem test_resetRelease_seeds :
    (after (.resetRelease 5 (strapsOf 3)) (held 0)).bus.lfsr = 6145
      ∧ (after (.resetRelease 5 (strapsOf 7)) (held 0)).bus.lfsr = 14337 := by decide

/-- R168: a first byte of 0xFF is a blank image. -/
theorem test_eepromAcknowledge_blank :
    (after (.eepromAcknowledge 5) (loading (.waiting 0) [])).loader.phase = .ended
      ∧ (after (.eepromAcknowledge 5) (loading (.waiting 0) [])).loader.record.blank = true
      ∧ (after (.eepromAcknowledge 5) (loading (.waiting 0) [(0, 0x6A)])).loader.phase = .header := by decide

/-- R168: 20 ms. -/
theorem test_eepromReadyTimeout :
    (after .eepromReadyTimeout (loading (.waiting 7) [(0, 0x6A)])).now = 20000007
      ∧ (after .eepromReadyTimeout (loading (.waiting 7) [(0, 0x6A)])).loader.record.blank = true := by decide

/-- R169: magic, version and sum. -/
theorem test_headerCheck_passes :
    (after (.headerCheck 5) (loading .header headerImage)).loader.phase = .sections 1 := by decide

/-- R169, R185: section 0 fails with a fault of detail 0. -/
theorem test_headerCheck_fails :
    (after (.headerCheck 5) (loading .header (headerImage.write 5 0))).loader.record.checkFail = some 0
      ∧ ((after (.headerCheck 5) (loading .header (headerImage.write 5 0))).faults.record.map (·.detail))
        = some 0 := by decide

/-- R167, R171: with N = 0, section 5 passes unread and the load ends. -/
theorem test_sectionCheck_lockCount_zero :
    (after (.sectionCheck 5) (loading (.sections 4) [])).loader.phase = .ended
      ∧ (after (.sectionCheck 5) (loading (.sections 4) [])).loader.checks.getD 5 .failed = .passed := by decide

/-- R52: a failed image goes to SERVICE. -/
theorem test_loadFinished_service :
    (after (.loadFinished 5) (loading .ended [])).life.state = .service := by decide

/-- 07, an early edge and a fast timer: 5210 us is early, 16660 us is mark 993 after 992. -/
theorem test_frameLineFall_early_and_mark :
    (after (.frameLineFall 5210000) lit).faults.counters.early = 1
      ∧ (after (.frameLineFall 5210000) lit).timer.number = 992
      ∧ (after (.frameLineFall 16660000) lit).timer.number = 993 := by decide

/-- R129: the window is 14583.625 us; an edge at its end is a mark. -/
theorem test_frameLineFall_window :
    (after (.frameLineFall 14583624) lit).faults.counters.early = 1
      ∧ (after (.frameLineFall 14583625) lit).timer.number = 993 := by decide

/-- R135: a rise in STUCK begins the high time. -/
theorem test_frameLineRise_stuck :
    (after (.frameLineRise 100000000)
      (lit.setTimer { lit.timer with lineState := .stuck })).timer.highSince = some 100000000 := by decide

/-- R135: an edge that comes while a reset holds the part is not lost: the line is not low when the part starts. -/
theorem test_frameLineRise_held :
    (after (.frameLineRise 5) ((held 3).setTimer { (held 3).timer with lineLow := true })).timer.lineLow = false := by
  decide

/-- R128: 4 us. -/
theorem test_frameTimerExpiry_asserts :
    (after .frameTimerExpiry lit).timer.assertion = some 16671000
      ∧ (after .frameTimerExpiry lit).timer.number = 992 := by decide

/-- R134: in STUCK the expiry is the mark. -/
theorem test_frameTimerExpiry_stuck :
    (after .frameTimerExpiry (lit.setTimer { lit.timer with lineState := .stuck })).timer.number = 993 := by
  decide

theorem test_assertionEnd :
    (after .assertionEnd (after .frameTimerExpiry lit)).timer.assertion = none
      ∧ (after .assertionEnd (after .frameTimerExpiry lit)).now = 16671000 := by decide

/-- 07, a stuck line: a low from 2000 us is STUCK just after 2100 us, detail 0. -/
theorem test_lineStuck :
    (after .lineStuck (after (.frameLineFall 2000000) lit)).timer.lineState = .stuck
      ∧ (after .lineStuck (after (.frameLineFall 2000000) lit)).now = 2100001
      ∧ ((after .lineStuck (after (.frameLineFall 2000000) lit)).faults.record.map (·.detail)) = some 0 := by
  decide

/-- 07, a stuck line: high from 100 000 us, NORMAL at 116 667 us. -/
theorem test_lineRecovery :
    (after .lineRecovery (lit.setTimer
      { lit.timer with lineState := .stuck, highSince := some 100000000 })).timer.lineState = .normal
      ∧ (after .lineRecovery (lit.setTimer
        { lit.timer with lineState := .stuck, highSince := some 100000000 })).now = 116667000 := by decide

/-- R140: 8 us. -/
theorem test_pacePulseEnd :
    (after .pacePulseEnd (after (.frameLineFall 16660000) lit)).now = 16668000 := by decide

/-- A service raster of 2 x 1 positions in flight. -/
def smallRaster : State :=
  (outside .service (lit.setSettings { lit.settings with hdr := { header with outW := 2, outH := 1 } })).setEncoder
    { Encoder.reset with raster := some { began := 0, next := 0 } }

/-- R6, R151. -/
theorem test_rasterDone_service :
    (after .rasterDone smallRaster).encoder.closed
      = [{ red := 1023, green := 1023, blue := 1023 }, { red := 1023, green := 1023, blue := 1023 }]
      ∧ (after .rasterDone smallRaster).encoder.raster = none := by decide

/-- Station 3 at the end of its listen period, with FLAT as its source. -/
def listened : State :=
  withDue [.listenPeriodEnd] ((outside .listen lit).setPattern .flat)

/-- 03, from power-on to LIT: the record starts L marks on. -/
theorem test_listenPeriodEnd_joins :
    (after .listenPeriodEnd listened).life.state = .joining
      ∧ (after .listenPeriodEnd listened).life.handover
        = some { kind := .join, start := 1000, code := 3, reason := .start } := by decide

/-- R54, R57: with a cause the station goes to DARK. -/
theorem test_listenPeriodEnd_dark :
    (after .listenPeriodEnd (listened.setLife { listened.life with
      causes := { CauseSet.empty with hold := true } })).life.state = .dark := by decide

theorem test_rejoin :
    ((after .rejoin (withDue [.rejoin] ((outside .dark lit).setPattern .grid))).life.handover.map (·.reason))
      = some .rejoin := by decide

/-- 05, a peer put to sleep: age 25 is LOST, and a SHARED zone fills. -/
theorem test_peerLost :
    ((after (.peerLost 4) (withDue [.peerLost 4]
      (withPeer4 { heardPeer .leaving 2600 180 with age := 25 } lit))).peer 4).state = .lost
      ∧ ((after (.peerLost 4) (withDue [.peerLost 4]
        (withPeer4 { heardPeer .leaving 2600 180 with age := 25 } lit))).zone 1).state = .filling := by decide

/-- 05: age 601 is cleared. -/
theorem test_peerPurge :
    (after (.peerPurge 4) (withDue [.peerPurge 4]
      (withPeer4 { heardPeer .leaving 2600 180 with state := .lost, age := 601 } lit))).peer 4
      = .cleared := by decide

theorem test_announcementDue :
    (after .announcementDue (withDue [.announcement]
      (lit.setSchedule { count := 8, running := true }))).schedule.count = 0
      ∧ (after .announcementDue (withDue [.announcement] lit)).bus.statusWanted = true := by decide

/-- A LOST input whose hold counter has passed the limit of 4. -/
def starved : State := withDue [.holdLimit] (lit.setInput { lit.input with link := .lost, hold := 5 })

/-- R149, R185: a LIT station leaves with reason INPUT; the detail is the limit. -/
theorem test_holdLimitPassed :
    ((after .holdLimitPassed starved).life.handover.map (·.reason)) = some .input
      ∧ ((after .holdLimitPassed starved).faults.record.map (·.detail)) = some 4 := by decide

/-- R148: three periods after the last frame start; the frame is truncated. -/
theorem test_inputLossTimeout :
    (after .inputLossTimeout (receiving 1 false)).now = 50001000
      ∧ (after .inputLossTimeout (receiving 1 false)).input.link = .lost
      ∧ (after .inputLossTimeout (receiving 1 false)).faults.counters.trunc = 1 := by decide

/-- 08, a stuttering render node: READY 42, SHOWN 41, READY 43, and a frame start. -/
def stutter : State :=
  (lit.setBuffers [{ FrameBuffer.reset with state := .ready, sequence := 42 },
    { FrameBuffer.reset with state := .shown, sequence := 41 },
    { FrameBuffer.reset with state := .ready, sequence := 43 }]).setInput
      { lit.input with startedFrames := 43 }

theorem test_frameStart_drops_the_older :
    ((after (.frameStart 5) stutter).buffer 0).state = .filling
      ∧ ((after (.frameStart 5) stutter).buffer 0).sequence = 44
      ∧ (after (.frameStart 5) stutter).faults.counters.drop = 1 := by decide

/-- R144: a line longer than Win is stored to Win, one shorter sets the short mark. -/
theorem test_line_stores_its_row :
    rowOf ((after (.line 5 [pixel 7, pixel 8, pixel 9]) (receiving 1 false)).buffer 0).rows 1
      = [pixel 7, pixel 8]
      ∧ ((after (.line 5 [pixel 7]) (receiving 1 false)).input.frame.map (·.short)) = some true := by decide

/-- R145. -/
theorem test_frameEnd_completes :
    ((after (.frameEnd 5) (receiving 2 false)).buffer 0).state = .ready
      ∧ (after (.frameEnd 5) (receiving 2 false)).input.link = .receiving := by decide

theorem test_frameEnd_truncates :
    ((after (.frameEnd 5) (receiving 1 false)).buffer 0).state = .free
      ∧ (after (.frameEnd 5) (receiving 1 false)).faults.counters.trunc = 1 := by decide

/-- 09, measuring black: scans of 171, 174 and 172 are in; the fourth reads 173 and gives black 180. -/
def measuring : State :=
  (outside .measure lit).setPhoto { lit.photo with
    measurement := some { scans := 3, blacks := [171, 174, 172] } }

theorem test_scanComplete_measures_black :
    (after (.scanComplete (readings 1290 1310 173 2132)) measuring).photo.black = 180
      ∧ (after (.scanComplete (readings 1290 1310 173 2132)) measuring).level.capacity = 2600
      ∧ (after (.scanComplete (readings 1290 1310 173 2132)) measuring).life.state = .listen
      ∧ (after (.scanComplete (readings 1290 1310 173 2132)) measuring).now = 1024000 := by decide

/-- A lamp that has read low seven times. -/
def failing : State :=
  lit.setPhoto { lit.photo with
    inputs := [{ enabled := true, average := 155, streak := 7 }, { enabled := true, average := 155, streak := 0 },
      { enabled := true, average := 160, streak := 0 }, { enabled := true, average := 2000, streak := 0 }] }

/-- 09 and 02, a lamp fails at frame 992: the eighth low scan raises LAMP_LOW, start 1000, fault code 4. -/
theorem test_scanComplete_raises_lamp_low :
    (after (.scanComplete (readings 155 155 160 2000)) failing).life.handover
      = some { kind := .leave, start := 1000, code := 4, reason := .lampLow }
      ∧ (after (.scanComplete (readings 155 155 160 2000)) failing).level.capacity = 310 := by decide

/-- R104, R110: a lead 0x04 (start 0, data, mark 1, stop 1) begins a message; a length of 61 (mark 0) breaks it. -/
theorem test_characterReceived_lead_and_length :
    (after (.characterReceived 10500 0b11000001000) lit).bus.assembly
        = some { lead := 0x04, length := none, payload := [], lastStart := 0, straddle := false }
      ∧ (after (.characterReceived 21500 0b10001111010)
          (lit.setBus { lit.bus with
            lastStart := 11000
            assembly := some {
              lead := 4, length := none, payload := [], lastStart := 11000,
              straddle := false } })).faults.counters.broken = 1 := by decide

/-- R104: the stop bit is read 10.5 bit times after the start bit. A character completed then, or at the end of its stop
bit, began with the start bit told at 900; one completed at 921.5 began at 911. -/
theorem test_characterReceived_start_bit :
    let heard := after (.startBit 900000) lit
    (after (.characterReceived 910500 0b11000001000) heard).bus.lastStart = 900000
      ∧ (after (.characterReceived 911000 0b11000001000) heard).bus.lastStart = 900000
      ∧ (after (.characterReceived 921500 0b11000001000) heard).bus.lastStart = 911000
      ∧ (after (.characterReceived 921500 0b11000001000) heard).bus.assembly.map (·.lastStart) = some 911000 := by
  decide

/-- A message of one payload byte that waits for its check character, with a mark since its lead. -/
def nearlyComplete (kind : MsgKind) (sender : Nat) : State :=
  lit.setBus { lit.bus with lastStart := 900000, assembly := some {
    lead := leadByte kind sender, length := some 1, payload := [7], lastStart := 900000, straddle := true } }

set_option maxRecDepth 4000 in
/-- 06, worked reception: a JOIN with its tag is queued, a STATUS with sender 0 counts DISCARD. -/
theorem test_characterReceived_completes :
    ((after (.characterReceived 910500 (Character.mk true false (crc8 [leadByte .join 5, 1, 7])).bits)
        (nearlyComplete .join 5)).bus.rxQueue.map (·.straddle)) = [true]
      ∧ (after (.characterReceived 910500 (Character.mk true false (crc8 [leadByte .status 0, 1, 7])).bits)
        (nearlyComplete .status 0)).faults.counters.discard = 1 := by decide

/-- R106: the register is preset to 0xFF, and the polynomial is 0x31: one byte 0xFF leaves 0, and one 0xFE
leaves 0x31. -/
theorem test_crc8 : crc8 [0xFF] = 0 ∧ crc8 [0xFE] = 0x31 := by decide

/-- R111: 22 bit times. -/
theorem test_assemblerTimeout :
    (after .assemblerTimeout (nearlyComplete .join 5)).now = 922000
      ∧ (after .assemblerTimeout (nearlyComplete .join 5)).faults.counters.broken = 1 := by decide

/-- 01, the worked pixel: station 4's 2600 against the own 3000 gives the target 28398. -/
theorem test_statusApplied :
    ((after .statusApplied (queued [message .status 4 (statusBytes 992)] lit)).peer 4).capacity = 2600
      ∧ (after .statusApplied (queued [message .status 4 (statusBytes 992)] lit)).level.scaleTarget = 28398 := by
  decide

/-- R138: a number ahead is adopted and counted. -/
theorem test_statusApplied_adopts :
    (after .statusApplied (queued [message .status 4 (statusBytes 995)] lit)).timer.number = 995
      ∧ (after .statusApplied (queued [message .status 4 (statusBytes 995)] lit)).faults.counters.adopt = 1
      ∧ (after .statusApplied (queued [message .status 4 (statusBytes 991)] lit)).timer.number = 992 := by
  decide

/-- R91: a JOIN at frame 992 with start 1000 and code 3 makes a SOLO zone yield from 64. -/
theorem test_joinApplied :
    ((after .joinApplied (queued [message .join 4 (bytes2 992 ++ bytes2 1000 ++ [3, 0] ++ bytes2 2600)]
      (lit.setZones (lit.zones.set 1 { sharedZone 4 with state := .solo, m := 64 })))).zone 1).ramp
      = some { base := 64, start := 1000, step := 8, up := false } := by decide

/-- 02, a lamp fails at station 4: zone 1 fills from 0 by {up, 1000, 4}, and the target is 30583. -/
theorem test_leaveApplied :
    ((after .leaveApplied (queued [message .leave 4 leaveBytes] lit)).zone 1).ramp
        = some { base := 0, start := 1000, step := 4, up := true }
      ∧ ((after .leaveApplied (queued [message .leave 4 leaveBytes] lit)).zone 1).m = 0
      ∧ (after .leaveApplied (queued [message .leave 4 leaveBytes] lit)).level.scaleTarget = 30583 := by decide

theorem test_orderTooShort :
    (after .orderTooShort (queued [message .order 0 [1, 2, 3, 4]] lit)).faults.counters.discard = 1
      ∧ (after .orderTooShort (queued [message .order 0 [1, 2, 3, 4]] lit)).bus.rxQueue = [] := by decide

/-- R178: code 11 is answered UNKNOWN, 5. -/
theorem test_orderUnknown :
    ((after .orderUnknown (ordered 11 [] lit)).bus.answers.map (·.result)) = [5] := by decide

/-- 04, order 41: serial 41, target 256, ramp 64, "next" at frame 5000. -/
def dome40 : State :=
  (lit.setLevel { lit.level with
    record := { serial := 40, startLevel := 1024, target := 1024, start := 4200, ramp := 0 } }).setTimer
      { lit.timer with number := 5000 }

set_option maxRecDepth 4000 in
theorem test_level_next :
    (after .level (queued
        [message .order 0 ([0, 41, 3, 0, 1] ++ bytes2 256 ++ bytes2 64 ++ [0, 0, 1])] dome40)).level.record
      = { serial := 41, startLevel := 1024, target := 256, start := 5008, ramp := 64 } := by decide

/-- 04: Dapp at marks 5008, 5013 and 5030, and order 42's at 5040. -/
theorem test_level_values :
    (LevelRecord.value { serial := 41, startLevel := 1024, target := 256, start := 5008, ramp := 64 } 5008) = 1012
      ∧ (LevelRecord.value { serial := 41, startLevel := 1024, target := 256, start := 5008, ramp := 64 } 5013) = 952
      ∧ (LevelRecord.value { serial := 41, startLevel := 1024, target := 256, start := 5008, ramp := 64 } 5030) = 748
      ∧ (LevelRecord.value
          { serial := 42, startLevel := 640, target := 1024, start := 5040, ramp := 32 } 5040) = 652 := by
  decide

/-- 11, order 501: a group DARK is carried out without an answer. -/
theorem test_dark :
    ((after .dark (queued [orderTo 0 2 []] lit)).life.handover.map (·.reason)) = some .hold
      ∧ (after .dark (queued [orderTo 0 2 []] lit)).bus.answers = [] := by decide

/-- R180: NOT_NOW, 4, in SERVICE; DONE, 0, elsewhere. -/
theorem test_light :
    ((after .light (ordered 3 [] (outside .service lit))).bus.answers.map (·.result)) = [4]
      ∧ ((after .light (ordered 3 [] lit)).bus.answers.map (·.result)) = [0] := by decide

theorem test_pattern :
    (after .pattern (ordered 4 [1, 0x12, 0x34] lit)).flatLevel = 0x1234
      ∧ (after .pattern (ordered 4 [2, 0x12, 0x34] lit)).flatLevel = 0
      ∧ ((after .pattern (ordered 4 [4, 0, 0] lit)).bus.answers.map (·.result)) = [3] := by decide

/-- R181: cause, STN 3, and six sections not checked. -/
theorem test_readStartRecord :
    ((after .readStartRecord (ordered 5 [0, 9] lit)).bus.answers.map (·.bytes))
      = [[0, 0, 0, 0, 0, 0, 0, 0, 0, 0, 0, 0]] := by decide

theorem test_readCounters :
    ((after .readCounters (ordered 5 [1, 9] (lit.count .cut))).bus.answers.map (·.bytes))
      = [List.replicate 23 0 ++ [1] ++ [0, 0, 0]] := by decide

/-- R103, R181: the own entry reads cleared; station 0 is BAD_ARG. -/
theorem test_readPeerEntry :
    ((after .readPeerEntry (ordered 5 [2, 3] lit)).bus.answers.map (·.bytes))
        = [[0, 255] ++ List.replicate 43 0]
      ∧ ((after .readPeerEntry (ordered 5 [2, 0] lit)).bus.answers.map (·.result)) = [3] := by decide

theorem test_readZone :
    ((after .readZone (ordered 5 [3, 1] lit)).bus.answers.map (·.bytes))
        = [[1, 4, 8, 8, 8, 0, 1, 0, 0, 0, 0, 0, 0, 0]]
      ∧ ((after .readZone (ordered 5 [3, 8] lit)).bus.answers.map (·.result)) = [3] := by decide

/-- 11: an empty record reads 0 in every field. -/
theorem test_readFaultRecord :
    ((after .readFaultRecord (ordered 5 [4, 0] lit)).bus.answers.map (·.bytes)) = [List.replicate 8 0] := by decide

theorem test_readPhotometer :
    ((after .readPhotometer (ordered 5 [5, 0] lit)).bus.answers.map (·.bytes))
      = [[1, 0, 0, 0, 1, 0, 0, 0, 1, 0, 0, 0, 1, 0, 0, 0, 0x0B, 0xB8, 0, 160, 0]] := by decide

/-- Sapp and target 28398 = 0x6EEE, Dapp 1024, F 64, LIT 2. -/
theorem test_readLevels :
    ((after .readLevels (ordered 5 [6, 0] lit)).bus.answers.map (·.bytes))
      = [[0x6E, 0xEE, 0x6E, 0xEE, 4, 0, 64, 2]] := by decide

theorem test_clear :
    (after .clear (ordered 6 [] (lit.count .early))).faults = FaultUnit.clear := by decide

/-- 10, mending a shape mismatch: with N = 1, 0xFF00 is LOCKED, 2; 0x0060 is DONE. -/
theorem test_store :
    ((after .store (ordered 7 ([0xFF, 0x00] ++ List.replicate 32 0)
        (lit.setSettings { lit.settings with
          hdr := { header with lockCount := 1 } }))).bus.answers.map (·.result)) = [2]
      ∧ (after .store (ordered 7 ([0x00, 0x60] ++ List.replicate 32 0x11) lit)).loader.transfer
        = some write60 := by decide

/-- 11, order 502: DONE is pushed and the order stays in hand. -/
theorem test_restart :
    (after .restart (ordered 8 [] lit)).console.restartPending = true
      ∧ (after .restart (ordered 8 [] lit)).restartDue = false
      ∧ (after .restart (queued [orderTo 0 8 []] lit)).restartDue = true := by decide

theorem test_restartReset :
    (after .restartReset (after .restart (queued [orderTo 0 8 []] lit))).life.state = .start
      ∧ (after .restartReset (after .restart (queued [orderTo 0 8 []] lit))).timer.number = 992
      ∧ (after .restartReset (after .restart (queued [orderTo 0 8 []] lit))).timer.unset = false := by decide

/-- 05, SLEEP at frame 7200: the record is {LEAVE, 7208, 3, SLEEP}. -/
theorem test_sleep :
    (after .sleep (ordered 9 [] (lit.setTimer { lit.timer with number := 7200 }))).life.handover
      = some { kind := .leave, start := 7208, code := 3, reason := .sleep } := by decide

theorem test_wake :
    (after .wake (ordered 10 [] (outside .sleep lit))).life.state = .listen
      ∧ (after .wake (ordered 10 [] (outside .sleep lit))).peers = clearedPeers
      ∧ ((after .wake (ordered 10 [] lit)).bus.answers.map (·.result)) = [4] := by decide

theorem test_storeTransferEnd :
    (after (.storeTransferEnd 5) (transferring lit)).eeprom.read 0x60 = 0x11
      ∧ (after (.storeTransferEnd 5) (transferring lit)).eeprom.read 0x5F = 0xFF
      ∧ (after (.storeTransferEnd 5) (transferring lit)).eeprom.read 0x80 = 0xFF := by decide

/-- R175: 5 ms. -/
theorem test_storeFlagClear :
    (after .storeFlagClear (lit.setLoader { lit.loader with storeInFlight := true, storeBegan := 9000000 })).now
      = 14000000 := by decide

/-- 06, worked contention: the gap of 24 ends, and with no back-off the driver is enabled. -/
theorem test_gapElapsed :
    (after .gapElapsed (transmitting .gap true false lit)).bus.txState = .lead
      ∧ (after .gapElapsed (transmitting .gap true false lit)).now = 24000 := by decide

/-- 06: the lead begins 2 bit times later with the data 0x03, and a gap of 48 is in force. -/
theorem test_leadStart :
    ((after .leadStart (transmitting .lead true false lit)).bus.message.head?) = some 0x03
      ∧ (after .leadStart (transmitting .lead true false lit)).bus.gap = 48
      ∧ (after .leadStart (transmitting .lead true false lit)).bus.lastStart = 2000 := by decide

/-- Station 3 sending its STATUS since time 26 bit times. -/
def sending : State :=
  lit.setBus { lit.bus with
    txState := .sending, item := .status, message := [0x03, 0, 0], txSince := 26000, lastStart := 26000 }

/-- 06: the first collision steps 6145 to 12291 and draws 0; the second steps 12291 to 24582 and draws 1. -/
theorem test_collision :
    (after (.collision 29000) sending).bus.lfsr = 12291
      ∧ (after (.collision 29000) sending).bus.backoff = 0
      ∧ (after (.collision 29000) sending).bus.statusWanted = true
      ∧ (after (.collision 29000)
          (sending.setBus { sending.bus with lfsr := 12291, attempts := 1 })).bus.backoff = 40 := by decide

/-- R121: a difference in the third character, which began at 48 us: what is read back is not assembled, though
the line at rest gives it a mark and a stop bit. One in the lead, and what is read back is taken as a lead. -/
theorem test_collision_reads_back :
    (after (.characterReceived 58500 0b11000001000) (after (.collision 50000) sending)).bus.assembly = none
      ∧ (after (.characterReceived 58500 0b11000001000)
          (after (.collision 50000) sending)).faults.counters.broken = 0
      ∧ (after (.characterReceived 36500 0b11000001000) (after (.collision 29000) sending)).bus.assembly
        = some { lead := 4, length := none, payload := [], lastStart := 26000, straddle := false } := by decide

/-- R124: the sixteenth collision abandons. -/
theorem test_collision_abandons :
    (after (.collision 29000) (sending.setBus { sending.bus with attempts := 15 })).faults.counters.abandon = 1
      ∧ (after (.collision 29000) (sending.setBus { sending.bus with attempts := 15 })).bus.attempts = 0 := by
  decide

/-- 06: at 164 bit times the back-off of 40 that began at 124 is over. -/
theorem test_backoffElapsed :
    (after .backoffElapsed (lit.setBus { lit.bus with
        txState := .backoff, statusWanted := true, txSince := 124000, backoff := 40 })).now = 164000
      ∧ (after .backoffElapsed (lit.setBus { lit.bus with
        txState := .backoff, statusWanted := true, txSince := 124000, backoff := 40 })).bus.txState = .lead := by
  decide

/-- 06: station 7 in BACKOFF since 124 with 120 left sees a start bit at 166 and keeps 78. -/
theorem test_startBit_keeps_the_rest :
    (after (.startBit 166000) (lit.setBus { lit.bus with
        txState := .backoff, statusWanted := true, txSince := 124000, backoff := 120 })).bus.backoff = 78
      ∧ (after (.startBit 166000) (lit.setBus { lit.bus with
        txState := .backoff, statusWanted := true, txSince := 124000, backoff := 120 })).bus.gap = 24 := by decide

/-- R113: a mark and the start bit of a lead at one instant: the lead first, and the message straddles; the mark
first, and it does not. -/
theorem test_startBit_and_mark_together :
    (after (.characterReceived 110500 0b11000001000)
        (straddleAtMark (after (.startBit 100000) lit))).bus.assembly.map (·.straddle) = some true
      ∧ (after (.characterReceived 110500 0b11000001000)
        (after (.startBit 100000) (straddleAtMark lit))).bus.assembly.map (·.straddle) = some false := by decide

/-- 06: 30 characters from 166 end at 496, the last beginning at 485. -/
theorem test_messageSent :
    (after .messageSent (sending.setBus { sending.bus with
        message := List.replicate 30 0, txSince := 166000, attempts := 2 })).now = 496000
      ∧ (after .messageSent (sending.setBus { sending.bus with
        message := List.replicate 30 0, txSince := 166000, attempts := 2 })).bus.lastStart = 485000
      ∧ (after .messageSent (sending.setBus { sending.bus with
        message := List.replicate 30 0, txSince := 166000, attempts := 2 })).bus.txState = .idle := by decide

theorem test_powerLost :
    (after (.powerLost 5) lit).resetPhase = .unpowered ∧ (after (.powerLost 5) lit).eeprom = [] := by decide

/-- R25's table, frame numbers 4 to 7. -/
theorem test_rasterPhase :
    ([4, 5, 6, 7] : List FrameNo).map (rasterPhase .still) = [(0, 0), (0, 0), (0, 0), (0, 0)]
      ∧ ([4, 5, 6, 7] : List FrameNo).map (rasterPhase .alternate) = [(0, 0), (1, 1), (0, 0), (1, 1)]
      ∧ ([4, 5, 6, 7] : List FrameNo).map (rasterPhase .rotate) = [(0, 0), (1, 0), (1, 1), (0, 1)]
      ∧ ([4, 5, 6, 7] : List FrameNo).map (rasterPhase .swap) = [(0, 0), (0, 1), (0, 0), (0, 1)] := by decide

/-- R104: the lead 0x03 of `sending`, bit by bit from its start bit on: start 0, data 11000000, mark 1, stop 1; the
length after it carries no mark. -/
theorem test_drivenLevel :
    (List.range 11).map (fun i => sending.drivenLevel (26000 + 1000 * i))
      = [false, true, true, false, false, false, false, false, false, true, true].map some
      ∧ sending.drivenLevel (26000 + 1000 * 20) = some false ∧ lit.drivenLevel 0 = none := by decide

/-- R156: divisor 7 makes a sample time of 16 us; five of them into a scan of four inputs are a round and one
sample. -/
theorem test_scan_in_progress :
    (advanceTo 80000 (lit.setConverter (readings 1 2 3 4))).scan
      = some { began := 0, round := 2, samples := [1, 2, 3, 4, 1] } := by decide

/-- 02: the weight of pixel (101, 56): t = 1024 and shape 8 give 832, and wz = 832 + 51 x m. -/
theorem test_worked_weight :
    shaped 8 1024 = 832 ∧ zoneWeight 8 4 1024 = 1036 ∧ zoneWeight 8 20 1024 = 1852
      ∧ zoneWeight 8 64 1024 = 4096 := by decide

/-- The table gives its rows no bits: no word spells a command (assumption 17). -/
theorem test_decode_spells_nothing : decodeTableWord 8 0 = none ∧ decodeTableWord 0 0 = none := by decide

/-! ### Witnesses: the queue, what is due, supply and reset -/

theorem witness_StepRunsFrontCommand :
    (lit.pending = []) ∧ ({ lit with pending := [.clear, .level] } : State).pending = .clear :: [.level] := by
  decide

/-- A RESTART whose answer has left. -/
def restarting : State :=
  lit.setConsole { inHand := none, restartPending := true, restartReleased := true }

theorem witness_DueWorkComesBeforeOtherCommands :
    ((Instr.level).settlesFirst = true ∧ listened.resetPhase = .running)
      ∧ ((Instr.pinReset 5).settlesFirst = true ∧ restarting.resetPhase = .running)
      ∧ (listened.resetPhase = .running ∧ listened.due = .listenPeriodEnd :: [])
      ∧ (restarting.resetPhase = .running ∧ restarting.due = [] ∧ restarting.restartDue = true) ∧ lit.calm
      ∧ ((Instr.level).reachesIdlePart = false ∧ (held 3).resetPhase ≠ .running)
      ∧ ((Instr.rejoin).reachesIdlePart = false ∧ (lit.setResetPhase .unpowered).resetPhase ≠ .running) := by decide

theorem witness_TransmitterMovesWithItsItems :
    ((transmitting .idle true false lit).bus.txState = .idle
        ∧ (transmitting .idle true false lit).anySendable = true)
      ∧ ((transmitting .backoff false false lit).bus.txState = .backoff
        ∧ (transmitting .backoff false false lit).anySendable = false)
      ∧ ((transmitting .gap false false lit).anySendable = false)
      ∧ ((transmitting .lead false true lit).anySendable = false)
      ∧ sending.bus.txState = .sending
      ∧ (lit.bus.txState = .idle ∧ lit.anySendable = false)
      ∧ ((transmitting .gap true false lit).bus.txState ≠ .idle
        ∧ (transmitting .gap true false lit).anySendable = true) := by decide

theorem witness_RasterLeavesAsTimeRuns :
    (0 ≤ smallRaster.now) ∧ (lit.now < 1 ∧ lit.encoder.raster = none)
      ∧ (smallRaster.now < 3 ∧ smallRaster.encoder.raster = some { began := 0, next := 0 }
        ∧ 3 < 0 + 2 * rasterSize smallRaster ∧ 0 ≤ (3 - 0 + 1) / 2
        ∧ 0 + 2 * rasterSize smallRaster ≤ 4 ∧ 0 + 2 * rasterSize smallRaster ≤ 9)
      ∧ (smallRaster.calm ∧ smallRaster.now < 0 + 2 * rasterSize smallRaster ∧ 0 ≤ rasterSize smallRaster) := by
  decide

theorem witness_PowerOnAndPinResetClearEveryOwner :
    (lit.setResetPhase .unpowered).resetPhase = .unpowered ∧ lit.resetPhase ≠ .unpowered
      ∧ (held 3).resetPhase ≠ .unpowered ∧ (held 3).resetPhase ≠ .running ∧ lit.resetPhase = .running := by
  decide

theorem witness_ResetReleaseSamplesStraps : (held 3).resetPhase = .held := by decide

/-- With the EEPROM's own write cycle running. -/
def cycling : State := lit.setLoader { lit.loader with storeInFlight := true, cycle := some write60 }

theorem witness_PowerLossTouchesOnlyThePageInFlight :
    (lit.resetPhase ≠ .unpowered ∧ lit.eeprom.wf ∧ lit.loader.transfer = none ∧ lit.loader.cycle = none)
      ∧ ((transferring lit).resetPhase ≠ .unpowered ∧ (transferring lit).eeprom.wf
        ∧ (transferring lit).loader.transfer = some write60 ∧ (transferring lit).loader.cycle = none
        ∧ 31 < write60.bytes.length)
      ∧ (cycling.resetPhase ≠ .unpowered ∧ cycling.eeprom.wf ∧ cycling.loader.cycle = some write60
        ∧ cycling.loader.transfer = none)
      ∧ ((transferring cycling).resetPhase ≠ .unpowered ∧ (transferring cycling).eeprom.wf
        ∧ (transferring cycling).loader.transfer = some write60
        ∧ (transferring cycling).loader.cycle = some write60) := by decide

theorem witness_RestartResetKeepsNumberStrapsAndFaults :
    (restarting.resetPhase = .running ∧ restarting.due = [] ∧ restarting.restartDue = true)
      ∧ lit.restartDue = false ∧ (transferring restarting).restartDue = false := by decide

/-! ### Witnesses: the load -/

theorem witness_EepromAnswersOrImageIsBlank :
    (loading (.waiting 0) []).calm ∧ (loading (.waiting 0) []).loader.phase = .waiting 0
      ∧ (loading (.waiting 0) [(0, 0x6A)]).eeprom.read 0 ≠ 0xFF := by decide

theorem witness_HeaderCheckSettlesSectionZero :
    ((loading .header headerImage).calm ∧ (loading .header headerImage).loader.phase = .header
        ∧ headerImage.word 0 = 0x6A24 ∧ headerImage.read 2 = 1 ∧ headerImage.word 62 = headerImage.sum 0 31)
      ∧ ((loading .header []).calm ∧ Memory.word [] 0 ≠ 0x6A24
        ∧ (loading .header []).loader.record.checkFail = none) := by decide

theorem witness_HeaderFieldsLieInTheirRanges :
    (∃ f ∈ clampedFields, f.raw (headerImage.write 3 4) < f.lo)
      ∧ (∃ f ∈ clampedFields, f.hi < f.raw headerImage)
      ∧ ∃ f ∈ clampedFields, f.lo ≤ f.raw headerImage ∧ f.raw headerImage ≤ f.hi := by decide

theorem witness_SectionCheckKeepsEachResult :
    ((loading (.sections 1) []).calm ∧ (loading (.sections 1) []).loader.phase = .sections 1
        ∧ (loading (.sections 1) []).loader.header = some header)
      ∧ ((loading (.sections 5) []).calm ∧ (loading (.sections 5) []).loader.phase = .sections 5)
      ∧ (sectionGood [] { header with lockCount := 0 } 5 = true)
      ∧ ({ header with lockCount := 1 } : Header).lockCount ≠ 0
      ∧ sectionClamps (Memory.writeBlock [] 0x42 [17]) header 1 = 8
      ∧ sectionClamps (Memory.writeBlock [] 0x42 [16]) header 1 = 7
      ∧ sectionClamps (Memory.writeBlock [] 65280 [0, 127, 2, 0]) { header with lockCount := 1 } 5 = 2
      ∧ sectionClamps (Memory.writeBlock [] 65280 [0, 128, 1, 255]) { header with lockCount := 1 } 5 = 0 := by
  decide

/-- A load that ends with every section passed. -/
def goodLoad : State :=
  let s := loading .ended []
  s.setLoader { s.loader with checks := List.replicate 6 .passed }

theorem witness_LoadFinishedLeavesStart :
    (goodLoad.calm ∧ goodLoad.loader.phase = .ended ∧ goodLoad.life.state = .start
        ∧ goodLoad.photo.inputs.length = 4 ∧ goodLoad.loader.imageGood = true
        ∧ goodLoad.loader.checks.length = 6 ∧ goodLoad.loader.header = some header ∧ goodLoad.straps.stn ≠ 0 ∧ goodLoad.straps.svc = false)
      ∧ ((loading .ended []).calm ∧ (loading .ended []).loader.imageGood = false)
      ∧ ((goodLoad.setLoader { goodLoad.loader with header := none }).loader.header = none)
      ∧ (let image := goodLoad.setLoader { goodLoad.loader with header := some { header with startDark := true } }
         (after (.loadFinished 5) image).settings.hdr.startDark = true
          ∧ (after (.loadFinished 5) image).settings.hasInput = true)
      ∧ (header.lockCount = 0 ∧ goodLoad.loader.checks.getD 5 .notChecked = .passed ∧ 0 < header.nx) := by decide

/-- The same with zones 0, 1 and 2 marked: zone 0 names neighbour 4 with a shape above 16, zone 1 the own
number, zone 2 a number above 31; and with a protected block. -/
def describedLoad : State :=
  let s := goodLoad.setLoader { goodLoad.loader with header := some { header with lockCount := 1 } }
  s.setEeprom (((Memory.writeBlock [] 0x40 [1, 4, 17]).writeBlock 0x48 [1, 3, 8]).writeBlock 0x50 [1, 32, 8])

theorem witness_LoadFinishedLeavesStart_states :
    (after (.loadFinished 5) (loading .ended [])).life.state = .service
      ∧ (let image := goodLoad.setLoader { goodLoad.loader with header := some { header with enables := [] } }
         (after (.loadFinished 5) image).life.state = .listen)
      ∧ (let image := goodLoad.setLoader { goodLoad.loader with header := some header }
         (after (.loadFinished 5) image).life.state = .measure) := by decide

theorem witness_LoadFinishedLeavesStart_zones :
    describedLoad.calm ∧ describedLoad.loader.phase = .ended ∧ describedLoad.loader.imageGood = true
      ∧ (∀ h ∈ describedLoad.loader.header, h.lockCount ≠ 0)
      ∧ ∃ marked bad : Nat → Bool, ∃ neighbour shape : Nat → Nat,
        (∀ z, (marked z = true ↔ describedLoad.eeprom.read (0x40 + 8 * z) = 1)
          ∧ neighbour z = (describedLoad.eeprom.read (0x41 + 8 * z)).toNat
          ∧ shape z = min 16 (describedLoad.eeprom.read (0x42 + 8 * z)).toNat
          ∧ (bad z = true ↔ marked z = true
              ∧ (neighbour z = 0 ∨ neighbour z = describedLoad.stn ∨ 31 < neighbour z)))
        ∧ (List.range 8).map marked = [true, true, true, false, false, false, false, false]
        ∧ (List.range 8).filter bad = [1, 2] ∧ shape 0 = 16 := by
  refine ⟨by decide, by decide, by decide, by decide,
    fun z => decide (describedLoad.eeprom.read (0x40 + 8 * z) = 1),
    fun z => decide (describedLoad.eeprom.read (0x40 + 8 * z) = 1
      ∧ ((describedLoad.eeprom.read (0x41 + 8 * z)).toNat = 0
        ∨ (describedLoad.eeprom.read (0x41 + 8 * z)).toNat = describedLoad.stn
        ∨ 31 < (describedLoad.eeprom.read (0x41 + 8 * z)).toNat)),
    _, _, fun z => ⟨by simp, rfl, rfl, by simp⟩, ?_, ?_, ?_⟩ <;> decide

/-! ### Witnesses: the frame line -/

/-- The same with the line STUCK, and high since 100 000 us. -/
def stuck : State :=
  lit.setTimer { lit.timer with lineState := .stuck, highSince := some 100000000 }

/-- The same with the line low since 2000 us. -/
def low : State := lit.setTimer { lit.timer with lineLow := true, lowSince := some 2000000 }

theorem witness_FallingEdgeIsMarkOrEarly :
    (held 3).resetPhase ≠ .running
      ∧ ((outside .start lit).calm ∧ (outside .start lit).life.state = .start)
      ∧ (lit.calm ∧ lit.life.state ≠ .start ∧ lit.timer.lineState = .normal
        ∧ (∀ m ∈ lit.timer.lastMark, 7 * lit.periodNs ≤ 8 * (max 14583625 lit.now - m))
        ∧ ¬∀ m ∈ lit.timer.lastMark, 7 * lit.periodNs ≤ 8 * (max 14583624 lit.now - m)) := by decide

theorem witness_StuckLineIsNotWatchedForEdges :
    (stuck.calm ∧ stuck.life.state ≠ .start ∧ stuck.timer.lineState = .stuck)
      ∧ (low.calm ∧ low.timer.lineState = .normal ∧ low.timer.lowSince = some 2000000) := by decide

theorem witness_TimerExpiryAssertsOrMarks :
    (lit.calm ∧ lit.life.state ≠ .start ∧ lit.timer.expiry = some 16667000 ∧ lit.timer.lineState = .normal
        ∧ lit.life.state ≠ .sleep)
      ∧ (stuck.calm ∧ stuck.timer.expiry = some 16667000 ∧ stuck.timer.lineState = .stuck)
      ∧ ((outside .sleep lit).calm ∧ (outside .sleep lit).life.state = .sleep
        ∧ (outside .sleep lit).timer.expiry = some 16667000) := by decide

theorem witness_LineTimesRunToTheirEnds :
    (lit.setResetPhase .unpowered).resetPhase ≠ .running
      ∧ ((outside .start lit).calm ∧ (outside .start lit).life.state = .start)
      ∧ (lit.calm ∧ lit.life.state ≠ .start ∧ lit.timer.lineState = .normal)
      ∧ (low.calm ∧ low.timer.lowSince = some 2000000)
      ∧ (stuck.calm ∧ stuck.timer.lineState = .stuck ∧ stuck.timer.highSince = some 100000000)
      ∧ (let s := after .frameTimerExpiry lit; s.calm ∧ s.timer.assertion = some 16671000)
      ∧ (let s := after (.frameLineFall 16660000) lit; s.calm ∧ s.timer.pace = some 16668000) := by decide

/-! ### Witnesses: the mark and the steps due -/

/-- The leave at the mark before its fade reaches 0. -/
def leftSoon : State := leaving.setTimer { leaving.timer with number := 1014 }

theorem witness_MarkStepsEveryOwner :
    (leftSoon.life.state = .leaving
        ∧ leftSoon.life.fadeRamp = some { base := 64, start := 1000, step := 4, up := false }
        ∧ RampRecord.value { base := 64, start := 1000, step := 4, up := false } (1014 + 1) = 0
        ∧ (leftSoon.zone 1).enabled = true ∧ leftSoon.life.sleepPending = false)
      ∧ (leaving.life.state = .leaving
        ∧ RampRecord.value { base := 64, start := 1000, step := 4, up := false } (992 + 1) ≠ 0)
      ∧ lit.life.state ≠ .leaving := by decide

theorem witness_MarkMakesStepsDue : ∃ u, u = frameMark lit ∧ u.due = [] := ⟨_, rfl, by decide⟩

theorem witness_MarkEvaluatesFadeAndEnds :
    (joining.life.state = .joining ∧ joining.life.fadeRamp = some { base := 0, start := 1000, step := 8, up := true }
        ∧ RampRecord.value { base := 0, start := 1000, step := 8, up := true } (992 + 1) ≠ 64
        ∧ RampRecord.value { base := 0, start := 1000, step := 8, up := true } (1006 + 1) = 64)
      ∧ (leaving.life.state = .leaving
        ∧ leaving.life.fadeRamp = some { base := 64, start := 1000, step := 4, up := false }
        ∧ RampRecord.value { base := 64, start := 1000, step := 4, up := false } (992 + 1) ≠ 0
        ∧ RampRecord.value { base := 64, start := 1000, step := 4, up := false } (1014 + 1) = 0)
      ∧ (outside .listen lit).life.state = .listen ∧ (outside .dark lit).life.state = .dark
      ∧ (outside .sleep lit).life.state = .sleep := by decide

theorem witness_MarkChoosesBufferAndBeginsRaster :
    (BuffersAgree stutter ∧ (stutter.buffer 2).state = .ready
        ∧ ∀ j, j < 3 → (stutter.buffer j).state = .ready → j ≠ 2 →
          ahead (stutter.buffer 2).sequence (stutter.buffer j).sequence = true)
      ∧ (BuffersAgree lit ∧ buffersIn .ready lit.buffers = 0 ∧ lit.encoder.raster = none)
      ∧ BuffersAgree smallRaster ∧ smallRaster.encoder.raster = some { began := 0, next := 0 } := by decide

theorem witness_LightingDecidesListenEndAndRejoin_zones : ∃ joined : Zone → Zone,
    (∀ z, joined z = if z.enabled = false then z else
      match targetOf (listened.peer z.neighbour) with
      | .shared => { z with state := .shared, ramp := none, m := 0 }
      | .ramp false start step =>
        if (RampRecord.mk 64 start step false).value listened.timer.number = 0 then
          { z with state := .shared, ramp := none, m := 0 }
        else { z with
          state := .yielding, ramp := some (RampRecord.mk 64 start step false),
          m := (RampRecord.mk 64 start step false).value listened.timer.number }
      | .ramp true _ _ | .loss | .unchanged => { z with state := .solo, ramp := none, m := 64 })
      ∧ (joined { sharedZone 4 with state := .wait, m := 64 }).state = .shared
      ∧ (joined { sharedZone 9 with state := .wait, m := 64 }).state = .solo :=
  ⟨_, fun _ => rfl, by decide, by decide⟩

theorem witness_LightingDecidesListenEndAndRejoin :
    (listened.resetPhase = .running ∧ DueStep.listenPeriodEnd ∈ listened.due ∧ listened.life.state = .listen
        ∧ lightingAllowed listened = true ∧ lightingAllowed (listened.setPattern .input) = false)
      ∧ (let s := withDue [.rejoin] ((outside .dark lit).setPattern .grid)
         s.resetPhase = .running ∧ DueStep.rejoin ∈ s.due ∧ s.life.state = .dark ∧ lightingAllowed s = true
          ∧ lightingAllowed (s.setPattern .input) = false) := by decide

theorem witness_AgedEntriesAreLostAndPurged_target : ∃ inSet : PeerEntry → Prop,
    (∀ e, inSet e ↔ e.state = .live ∧ 1024 ≤ e.capacity
      ∧ (e.reported = some .joining ∨ e.reported = some .lit ∨ e.reported = some .leaving))
      ∧ inSet (heardPeer .lit 2600 180) ∧ ¬inSet (heardPeer .lit 1023 180) ∧ ¬inSet (heardPeer .dark 2600 180)
      ∧ (300 < 1024) ∧ (1024 ≤ 3000 ∧ 3000 ≠ 0 ∧ 2600 ≤ 3000)
      ∧ scaleTargetOf 3000 1024 [heardPeer .lit 2600 180, heardPeer .lit 1023 180] = 28398 :=
  ⟨_, fun _ => Iff.rfl, by decide, by decide, by decide, by decide, by decide, by decide⟩

theorem witness_AgedEntriesAreLostAndPurged :
    (let s := withDue [.peerLost 4] (withPeer4 { heardPeer .leaving 2600 180 with age := 25 } lit)
     s.resetPhase = .running ∧ s.peers.length = 31 ∧ DueStep.peerLost 4 ∈ s.due ∧ (s.peer 4).state = .live
      ∧ s.settings.hdr.silence < (s.peer 4).age ∧ s.life.state.inSky = true ∧ (s.zone 1).neighbour = 4
      ∧ (s.zone 1).enabled = true ∧ (s.zone 1).state = .shared ∧ (s.zone 2).neighbour ≠ 4
      ∧ (outside .dark s).life.state.inSky = false)
      ∧ (let s := withDue [.peerPurge 4]
          (withPeer4 { heardPeer .leaving 2600 180 with state := .lost, age := 601 } lit)
         s.resetPhase = .running ∧ s.peers.length = 31 ∧ DueStep.peerPurge 4 ∈ s.due
          ∧ (s.peer 4).state = .lost ∧ 600 < (s.peer 4).age)
      ∧ (let r : RampRecord := { base := 64, start := 990, step := 4, up := false }
         let yielding := { sharedZone 4 with state := .yielding, ramp := some r, m := 52 }
         (yielding.state = .yielding ∧ yielding.ramp = some r ∧ r.value lit.timer.number < 64
            ∧ ({ r with start := lit.timer.number + 1 } : RampRecord).value lit.timer.number = 64)
          ∧ ({ sharedZone 4 with state := .solo, m := 64 } : Zone).state = .solo) := by decide

theorem witness_AnnouncementAndHoldLimitAct :
    (starved.resetPhase = .running ∧ DueStep.holdLimit ∈ starved.due ∧ starved.input.link = .lost
        ∧ starved.settings.hdr.holdLimit < starved.input.hold ∧ starved.patternSource = .input
        ∧ starved.life.causes.input = false ∧ starved.life.state = .lit)
      ∧ (let s := withDue [.holdLimit] (joining.setInput { joining.input with link := .lost, hold := 5 })
         s.resetPhase = .running ∧ DueStep.holdLimit ∈ s.due ∧ s.life.state = .joining
          ∧ s.life.fadeRamp = some { base := 0, start := 1000, step := 8, up := true })
      ∧ (outside .dark starved).life.state ≠ .joining ∧ (outside .dark starved).life.state ≠ .lit
      ∧ DueStep.announcement ∈ (withDue [.announcement] lit).due := by decide

/-! ### Witnesses: the input link -/

theorem witness_InputIsLostAfterLossTime :
    ((receiving 1 false).calm ∧ (receiving 1 false).input.lossDeadline = some 50001000
        ∧ BuffersAgree (receiving 1 false)
        ∧ (receiving 1 false).input.frame
          = some { buffer := 0, sequence := 41, lines := 1, short := false })
      ∧ (let s := lit.setInput { lit.input with lossDeadline := some 9 }
         s.calm ∧ s.input.lossDeadline = some 9 ∧ BuffersAgree s ∧ s.input.frame = none) := by decide

theorem witness_FrameStartTakesBuffer :
    (lit.calm ∧ BuffersAgree lit ∧ lit.life.state ≠ .start ∧ lit.settings.hasInput = true
        ∧ lit.input.frame = none ∧ (lit.buffer 0).state = .free)
      ∧ ((outside .start lit).calm ∧ BuffersAgree (outside .start lit) ∧ (outside .start lit).life.state = .start)
      ∧ ((receiving 1 false).calm ∧ BuffersAgree (receiving 1 false)
        ∧ (receiving 1 false).input.frame = some { buffer := 0, sequence := 41, lines := 1, short := false })
      ∧ (stutter.calm ∧ BuffersAgree stutter ∧ stutter.input.frame = none
        ∧ (∀ j, j < 3 → (stutter.buffer j).state ≠ .free) ∧ (stutter.buffer 0).state = .ready
        ∧ (stutter.buffer 2).state = .ready
        ∧ ahead (stutter.buffer 2).sequence (stutter.buffer 0).sequence = true)
      ∧ (lit.setBuffers (buffersOf .shown .ready .free)).calm
      ∧ BuffersAgree (lit.setBuffers (buffersOf .shown .ready .free)) :=
  ⟨by decide, by decide, by decide, by decide, by decide, by decide⟩

theorem witness_LineGoesToItsRow :
    ((receiving 1 false).calm ∧ BuffersAgree (receiving 1 false) ∧ (receiving 1 false).life.state ≠ .start
        ∧ (receiving 1 false).settings.hasInput = true
        ∧ (receiving 1 false).input.frame
          = some { buffer := 0, sequence := 41, lines := 1, short := false }
        ∧ 1 < (receiving 1 false).settings.hdr.inH)
      ∧ ((receiving 2 false).calm ∧ BuffersAgree (receiving 2 false)
        ∧ ∀ f ∈ (receiving 2 false).input.frame, (receiving 2 false).settings.hdr.inH ≤ f.lines)
      ∧ (lit.calm ∧ BuffersAgree lit ∧ ∀ f ∈ lit.input.frame, lit.settings.hdr.inH ≤ f.lines) := by decide

theorem witness_LineGoesToItsRow_ignored :
    ((outside .start lit).calm ∧ BuffersAgree (outside .start lit) ∧ (outside .start lit).life.state = .start)
      ∧ (lit.setSettings { lit.settings with hasInput := false }).calm
      ∧ BuffersAgree (lit.setSettings { lit.settings with hasInput := false })
      ∧ (lit.setSettings { lit.settings with hasInput := false }).settings.hasInput = false := by decide

/-- Two READY buffers beside the frame in progress. -/
def fullReceiving : State := (receiving 2 false).setBuffers (buffersOf .filling .ready .ready)

theorem witness_FrameEndCompletesOrTruncates :
    ((receiving 2 false).calm ∧ BuffersAgree (receiving 2 false) ∧ (receiving 2 false).life.state ≠ .start
        ∧ (receiving 2 false).settings.hasInput = true
        ∧ (receiving 2 false).input.frame
          = some { buffer := 0, sequence := 41, lines := 2, short := false }
        ∧ 2 = (receiving 2 false).settings.hdr.inH ∧ buffersIn .ready (receiving 2 false).buffers < 2)
      ∧ (fullReceiving.calm ∧ BuffersAgree fullReceiving ∧ (fullReceiving.buffer 1).state = .ready
        ∧ (fullReceiving.buffer 2).state = .ready
        ∧ ahead (fullReceiving.buffer 2).sequence (fullReceiving.buffer 1).sequence = true)
      ∧ ((receiving 1 false).calm ∧ 1 ≠ (receiving 1 false).settings.hdr.inH)
      ∧ ((receiving 2 true).calm ∧ BuffersAgree (receiving 2 true)) := by decide

theorem witness_FrameEndCompletesOrTruncates_ignored :
    (lit.calm ∧ BuffersAgree lit ∧ lit.input.frame = none)
      ∧ ((outside .start lit).calm ∧ BuffersAgree (outside .start lit) ∧ (outside .start lit).life.state = .start)
      ∧ (lit.setSettings { lit.settings with hasInput := false }).calm
      ∧ BuffersAgree (lit.setSettings { lit.settings with hasInput := false })
      ∧ (lit.setSettings { lit.settings with hasInput := false }).settings.hasInput = false := by decide

/-! ### Witnesses: the Photometer -/

theorem witness_ScanSetsAveragesCapacityAndBlack :
    (lit.scan = some (.begun 0) ∧ (lit.photo.inputs.filter (·.enabled)).length = 4
        ∧ (Scan.begun 0).samples.length ≤ min (16 * 4) ((50000 - 0) / (2000 * (lit.settings.hdr.divisor + 1)))
        ∧ (lit.setConverter (readings 1 2 3 4)).converter.length = 64 ∧ lit.converter.length = 0)
      ∧ (advanceTo (0 + 16 * 4 * (2000 * (lit.settings.hdr.divisor + 1)))
          { lit with converter := lit.converter ++ readings 1290 1310 160 2000 }).scan.isSome = true
      ∧ (((outside .sleep lit).setScan none).calm ∧ ((outside .sleep lit).setScan none).scan = none)
      ∧ (lit.calm ∧ lit.scan = some (.begun 0) ∧ lit.photo.inputs.length = 4 ∧ lit.life.state ≠ .measure
        ∧ lit.photo.measurement = none)
      ∧ (measuring.calm ∧ measuring.scan = some (.begun 0) ∧ measuring.photo.inputs.length = 4
        ∧ measuring.life.state = .measure
        ∧ measuring.photo.measurement = some { scans := 3, blacks := [171, 174, 172] }) := by decide

theorem witness_ScanSetsAveragesCapacityAndBlack_capacity :
    (after (.scanComplete (readings 1490 1500 160 2000)) lit).level.capacity = lit.level.capacity
      ∧ (after (.scanComplete (readings 1290 1310 160 2000)) lit).level.capacity ≠ lit.level.capacity
      ∧ (after (.scanComplete (readings 1490 1500 160 2000)) lit).life.state = lit.life.state := by decide

/-- A lamp house that has read hot three times. -/
def hot : State :=
  lit.setPhoto { lit.photo with
    inputs := [{ enabled := true, average := 1290, streak := 0 }, { enabled := true, average := 1310, streak := 0 },
      { enabled := true, average := 160, streak := 0 }, { enabled := true, average := 3300, streak := 3 }] }

theorem witness_StreaksRaiseAndClearCauses_thermal :
    (hot.calm ∧ hot.scan = some (.begun 0) ∧ hot.photo.inputs.length = 4
        ∧ (after (.scanComplete (readings 1290 1310 160 3300)) hot).photo.thermal = true
        ∧ (after (.scanComplete (readings 1290 1310 160 3200)) hot).photo.thermal = false)
      ∧ (measuring.calm ∧ measuring.scan = some (.begun 0)
        ∧ (measuring.photo.measurement ≠ none ∧ measuring.life.state = .measure)
        ∧ (∃ m ∈ measuring.photo.measurement, 3 ≤ m.scans)
        ∧ measuring.life.causes.lampLow = measuring.photo.lampLow) := by decide

theorem witness_StreaksRaiseAndClearCauses :
    (failing.calm ∧ failing.scan = some (.begun 0) ∧ failing.photo.inputs.length = 4
        ∧ failing.photo.measurement = none ∧ failing.life.state ≠ .measure
        ∧ failing.life.causes.lampLow = failing.photo.lampLow
        ∧ failing.life.causes.thermal = failing.photo.thermal)
      ∧ (after (.scanComplete (readings 155 155 160 2000)) failing).photo.lampLow = true
      ∧ (after (.scanComplete (readings 1290 1310 160 2000)) failing).photo.lampLow = false
      ∧ failing.life.state = .lit
      ∧ (let s := failing.setLife joining.life
         s.calm ∧ s.life.state = .joining
          ∧ s.life.fadeRamp = some { base := 0, start := 1000, step := 8, up := true }
          ∧ (after (.scanComplete (readings 155 155 160 2000)) s).photo.lampLow = true) := by decide

/-! ### Witnesses: the bus -/

/-- A message whose lead has come, and its length if given, with payload characters so far. -/
def assembling (length : Option Nat) (payload : List Byte) : State :=
  lit.setBus { lit.bus with assembly := some {
    lead := 4, length := length, payload := payload, lastStart := 0, straddle := false } }

theorem witness_CharacterReachesTheAssembler_bits :
    (1 : CharacterBits).getLsbD 0 = true ∧ (0b11000001000 : CharacterBits).getLsbD 0 = false
      ∧ (Character.mk true true 4).bits = 0b11000001000 ∧ (Character.mk false false 0x81).bits = 0b00100000010 := by
  decide

/-- Idle after a difference in a later character of an own message, the line's last start bit at 0. -/
def deafened : State := lit.setBus { lit.bus with deaf := true }

theorem witness_CharacterReachesTheAssembler_deaf :
    deafened.calm ∧ deafened.bus.txState ≠ .sending
      ∧ (noteStart (advanceTo 10500 deafened)).bus.deaf = true
      ∧ (noteStart (advanceTo 32499 deafened)).bus.deaf = true
      ∧ (noteStart (advanceTo 32500 deafened)).bus.deaf = false
      ∧ (noteStart (advanceTo 10500 (assembling none []))).bus.deaf = false
      ∧ (noteStart (advanceTo 10500 lit)).bus.deaf = false := by decide

theorem witness_CharacterReachesTheAssembler :
    (sending.calm ∧ sending.bus.txState = .sending)
      ∧ (lit.calm ∧ lit.bus.txState ≠ .sending ∧ lit.bus.assembly = none)
      ∧ ((assembling none []).calm ∧ (assembling none []).bus.assembly ≠ none)
      ∧ (noteStart (advanceTo 10500 (assembling none []))).bus.assembly
        = some { lead := 4, length := none, payload := [], lastStart := 0, straddle := false }
      ∧ (noteStart (advanceTo 10500 (assembling (some 60) [7]))).bus.assembly
        = some { lead := 4, length := some 60, payload := [7], lastStart := 0, straddle := false } := by decide

theorem witness_CompleteMessageIsTested :
    (assembling (some 1) [7]).calm ∧ (assembling (some 1) [7]).bus.txState ≠ .sending
      ∧ (noteStart (advanceTo 10500 (assembling (some 1) [7]))).bus.assembly
        = some { lead := 4, length := some 1, payload := [7], lastStart := 0, straddle := false }
      ∧ (noteStart (advanceTo 10500 (assembling (some 0) []))).bus.assembly
        = some { lead := 4, length := some 0, payload := [], lastStart := 0, straddle := false } := by decide

theorem witness_StartBitMakesTheLineBusy :
    (sending.calm ∧ sending.bus.txState = .sending) ∧ (lit.calm ∧ lit.bus.txState ≠ .sending)
      ∧ (transmitting .backoff true false lit).bus.txState ≠ .sending
      ∧ (lit.setNow 11000).now ≤ (lit.setNow 11000).bus.lastStart + 11 * (lit.setNow 11000).bitTime
      ∧ (let s := lit.setNow 11001
         s.bus.lastStart + 11 * s.bitTime < s.now ∧ 2 * s.now = 2 * 501 + 21 * s.bitTime)
      ∧ (assembling none []).bus.assembly
        = some { lead := 4, length := none, payload := [], lastStart := 0, straddle := false }
      ∧ lit.bus.assembly = none := by decide

theorem witness_MessageReadsBack_bits :
    (transmitting .lead true false lit).bus.txState = .lead ∧ lit.bus.txState = .idle
      ∧ (transmitting .gap true false lit).bus.txState = .gap
      ∧ (transmitting .backoff true false lit).bus.txState = .backoff
      ∧ (sending.bus.txState = .sending ∧ sending.bus.message[0]? = some 0x03 ∧ sending.bus.message[2]? = some 0
        ∧ (sending.bus.txSince + (11 * 0 + 0) * sending.bitTime ≤ 26000
          ∧ 26000 < sending.bus.txSince + (11 * 0 + 0 + 1) * sending.bitTime)
        ∧ (sending.bus.txSince + (11 * 2 + 10) * sending.bitTime ≤ 58999
          ∧ 58999 < sending.bus.txSince + (11 * 2 + 10 + 1) * sending.bitTime)) := by decide

theorem witness_MessageReadsBack_check :
    ∃ shift : Byte → Byte, ∀ r, shift r = if r.getLsbD 7 then (r <<< 1) ^^^ 0x31 else r <<< 1 :=
  ⟨_, fun _ => rfl⟩

theorem witness_MessageReadsBack :
    (31 < 32) ∧ (List.replicate 60 (7 : Byte)).length ≤ 60 ∧ lit.bus.assembly = none := by decide

set_option maxRecDepth 4000 in
theorem witness_StatusFillsEntryAndTellsBlocks :
    (let s := queued [message .status 31 (statusBytes 995)] lit
     s.calm ∧ s.life.state ≠ .start ∧ s.life.state ≠ .sleep ∧ (readStatus (statusBytes 995)).isSome = true
      ∧ s.peers.length = 31 ∧ s.zones.length = 8)
      ∧ (let s := queued [message .status 4 (statusBytes 995)] lit
         (s.zone 1).enabled = true ∧ (s.zone 1).neighbour = 4 ∧ (s.zone 2).neighbour ≠ 4
          ∧ (s.zone 0).enabled = false ∧ (s.zone 1).mismatch = false)
      ∧ (queued [message .status 4 [1]] lit).calm ∧ readStatus [1] = none
      ∧ (queued [message .status 4 []] (outside .sleep lit)).calm
      ∧ (queued [message .status 4 []] (outside .start lit)).calm := by decide

theorem witness_StatusFillsEntryAndTellsBlocks_layout :
    (readStatus (statusBytes 995)).isSome = true ∧ byteAt (statusBytes 995) 8 = 0
      ∧ (let p := (statusBytes 995).set 8 2
         (readStatus p).isSome = true ∧ byteAt p 8 ≠ 0 ∧ readStatus ((statusBytes 995).set 8 3) = none)
      ∧ (readStatus ((statusBytes 992).take 22 ++ [1, 3, 10])).isSome = true
      ∧ 0 < byteAt ((statusBytes 992).take 22 ++ [1, 3, 10]) 22 := by decide

/-- A STATUS of station 4 whose zone list gives the seam shape 10 where station 3 has 8 (10, worked sequence). -/
def mismatched : State :=
  queued [message .status 4 ((statusBytes 992).take 22 ++ [1, 3, 10])] lit

theorem witness_StatusFillsEntryAndTellsBlocks_mismatch :
    (mismatched.zone 1).mismatch = false ∧ ((after .statusApplied mismatched).zone 1).mismatch = true
      ∧ ((after .statusApplied mismatched).zone 1).agreedShape = 8
      ∧ ((after .statusApplied mismatched).faults.record.map (·.detail)) = some 1 := by decide

theorem witness_StatusFillsEntryAndTellsBlocks_mended :
    let s := queued [message .status 4 ((statusBytes 993).take 22 ++ [1, 3, 8])] (after .statusApplied mismatched)
    (s.zone 1).mismatch = true ∧ ((after .statusApplied s).zone 1).mismatch = false := by decide

theorem witness_NoticeMarksEntryAndTellsBlocks :
    (let s := queued [message .leave 4 leaveBytes] lit
     s.calm ∧ s.life.state ≠ .start ∧ s.life.state ≠ .sleep ∧ leaveBytes.length = 8 ∧ s.peers.length = 31)
      ∧ (queued [message .join 31 leaveBytes] lit).calm
      ∧ (queued [message .join 1 [1]] lit).calm ∧ ([1] : List Byte).length ≠ 8
      ∧ (queued [message .leave 4 leaveBytes] (outside .sleep lit)).life.state = .sleep := by decide

theorem witness_ZoneTakesTargetAndShape :
    (targetOf (heardPeer .lit 0 0) = .shared) ∧ (PeerEntry.cleared.state ≠ .live)
      ∧ ((heardPeer .listen 0 0).state = .live)
      ∧ (let e := { heardPeer .joining 0 0 with handover := some { kind := .join, start := 1000, code := 6 } }
         e.state = .live ∧ e.reported = some .joining
          ∧ e.handover = some { kind := .join, start := 1000, code := 6 })
      ∧ (let e := { heardPeer .joining 0 0 with handover := some { kind := .leave, start := 1000, code := 6 } }
         e.reported = some .joining ∧ ∀ h ∈ e.handover, h.kind ≠ .join)
      ∧ Zone.disabled.state = .wait ∧ (sharedZone 4).state = .shared
      ∧ (let z := { sharedZone 4 with
            state := .yielding, m := 64, ramp := some { base := 64, start := 1000, step := 8, up := false } }
         z.state = .yielding ∧ z.ramp = some { base := 64, start := 1000, step := 8, up := false }
          ∧ RampRecord.value { base := 64, start := 1000, step := 8, up := false } 1000 < 64
          ∧ RampRecord.value { base := 64, start := 1000, step := 8, up := false } 999 = 64) := by decide

/-! ### Witnesses: the orders -/

theorem witness_OrderIsTestedAndAnswered_layout :
    ([0x01, 0xF4, 3, 31] : List Byte).length < 5 ∧ 5 ≤ ([0x01, 0xF4, 3, 31, 8] : List Byte).length
      ∧ ((orderOf 31 5 [6, 0]).args.length = 2 ∧ byteAt (orderOf 31 5 [6, 0]).args 0 ≤ 6)
      ∧ (let s := ordered 1 [] lit
         s.bus.rxQueue = orderTo 31 1 [] :: [] ∧ (orderTo 31 1 []).kind = .order ∧ s.life.state ≠ .start
          ∧ s.console.inHand = none) := by decide

theorem witness_OrderIsTestedAndAnswered :
    (outside .start lit).life.state = .start
      ∧ ({ lit.console with inHand := some (orderTo 31 8 []) } : Console).inHand ≠ none
      ∧ (lit.calm ∧ (Instr.level).takesOrder (orderOf 31 1 []) = true ∧ lit.orderAtHead = none)
      ∧ ((ordered 1 [] lit).calm ∧ (ordered 1 [] lit).orderAtHead = some (orderOf 31 1 [])
        ∧ (lit.stn ^^^ 3) &&& 31 = 0 ∧ (lit.stn ^^^ 2) &&& 31 ≠ 0
        ∧ (orderOf 31 1 []).args.length ≠ argumentBytes 1)
      ∧ ((ordered 11 [] lit).orderAtHead = some (orderOf 31 11 [])
        ∧ (Instr.orderUnknown).takesOrder (orderOf 31 11 []) = true)
      ∧ ((ordered 0 [] lit).orderAtHead = some (orderOf 31 0 [])
        ∧ (Instr.orderUnknown).takesOrder (orderOf 31 0 []) = true)
      ∧ (let s := queued [message .order 0 [1, 2, 3, 4]] lit
         s.calm ∧ s.life.state ≠ .start ∧ s.console.inHand = none)
      ∧ lit.bus.answers.length < 4 ∧ lit.stn ≠ 0
      ∧ 4 ≤ (lit.setBus { lit.bus with
          answers := List.replicate 4 { serial := 1, code := 2, result := 0, bytes := [] } }).bus.answers.length := by
  decide

theorem witness_LevelOrderReplacesRecord :
    (let s := ordered 1 [4, 1, 0, 0, 0, 0, 0] lit
     s.ordered .level (orderOf 31 1 [4, 1, 0, 0, 0, 0, 0]) ∧ byteAt [4, 1, 0, 0, 0, 0, 0] 6 = 0)
      ∧ byteAt [4, 1, 0, 0, 0, 0, 1] 6 = 1
      ∧ ((ordered 1 [0, 0, 0, 0, 0, 0, 2] lit).ordered .level (orderOf 31 1 [0, 0, 0, 0, 0, 0, 2])
        ∧ 1 < byteAt [0, 0, 0, 0, 0, 0, 2] 6)
      ∧ (let r : LevelRecord := { serial := 1, startLevel := 1024, target := 256, start := 5008, ramp := 64 }
         (32767 < ((5007 : FrameNo) - r.start).toNat) ∧ ((5008 : FrameNo) - r.start).toNat ≤ 32767
          ∧ r.ramp ≠ 0 ∧ r.target ≤ r.startLevel) := by decide

theorem witness_DarkLightPatternAndClearAct :
    ((ordered 2 [] lit).ordered .dark (orderOf 31 2 []) ∧ (ordered 2 [] lit).life.causes.hold = false
        ∧ (ordered 2 [] lit).life.state = .lit)
      ∧ ((ordered 2 [] joining).ordered .dark (orderOf 31 2 []) ∧ (ordered 2 [] joining).life.state = .joining
        ∧ (ordered 2 [] joining).life.fadeRamp = some { base := 0, start := 1000, step := 8, up := true })
      ∧ ((ordered 2 [] leaving).ordered .dark (orderOf 31 2 []) ∧ (ordered 2 [] leaving).life.state ≠ .lit)
      ∧ ((ordered 3 [] lit).ordered .light (orderOf 31 3 []) ∧ (ordered 3 [] lit).life.state ≠ .service)
      ∧ ((ordered 3 [] (outside .service lit)).ordered .light (orderOf 31 3 []))
      ∧ ((ordered 4 [3, 0, 0] lit).ordered .pattern (orderOf 31 4 [3, 0, 0]) ∧ byteAt [3, 0, 0] 0 ≤ 3)
      ∧ ((ordered 4 [4, 0, 0] lit).ordered .pattern (orderOf 31 4 [4, 0, 0]) ∧ 3 < byteAt [4, 0, 0] 0)
      ∧ (ordered 6 [] lit).ordered .clear (orderOf 31 6 []) := by decide

theorem witness_ReadsReportWhatOwnersHold :
    (ordered 5 [0, 0] lit).ordered .readStartRecord (orderOf 31 5 [0, 0])
      ∧ (ordered 5 [1, 0] lit).ordered .readCounters (orderOf 31 5 [1, 0])
      ∧ (ordered 5 [2, 31] lit).ordered .readPeerEntry (orderOf 31 5 [2, 31])
      ∧ (ordered 5 [3, 7] lit).ordered .readZone (orderOf 31 5 [3, 7])
      ∧ (ordered 5 [4, 0] lit).ordered .readFaultRecord (orderOf 31 5 [4, 0])
      ∧ (ordered 5 [5, 0] lit).ordered .readPhotometer (orderOf 31 5 [5, 0])
      ∧ (ordered 5 [6, 0] lit).ordered .readLevels (orderOf 31 5 [6, 0]) := by decide

theorem witness_ReadsReportWhatOwnersHold_refusals :
    (ordered 5 [7, 0] lit).ordered .readLevels (orderOf 31 5 [7, 0])
      ∧ (ordered 5 [2, 32] lit).ordered .readPeerEntry (orderOf 31 5 [2, 32])
      ∧ (ordered 5 [3, 8] lit).ordered .readZone (orderOf 31 5 [3, 8])
      ∧ lit.loader.checks.length = 6 ∧ lit.photo.inputs.length = 4
      ∧ lit.faults.record = none ∧ (lit.report .thermal 7).faults.record.isSome = true := by decide

theorem witness_ReadsReportWhatOwnersHold_present :
    (let e := { heardPeer .leaving 2600 180 with
       handover := some { kind := .leave, start := 1000, code := 4 }, levelCopy := some lit.level.record }
     (e.handover = some { kind := .leave, start := 1000, code := 4 } ∧ e.levelCopy = some lit.level.record)
      ∧ (PeerEntry.cleared.handover = none ∧ PeerEntry.cleared.levelCopy = none))
      ∧ ((sharedZone 4).ramp = none
        ∧ ({ sharedZone 4 with ramp := some { base := 0, start := 1000, step := 4, up := true } } : Zone).ramp
          = some { base := 0, start := 1000, step := 4, up := true }) := by decide

/-- The arguments of a STORE of 32 bytes 0x11 to 0x0060. -/
def storeArgs : List Byte := [0x00, 0x60] ++ List.replicate 32 0x11

theorem witness_StoreWritesThirtyTwoBytes :
    ((ordered 7 storeArgs lit).ordered .store (orderOf 31 7 storeArgs) ∧ storeArgs.length = 34)
      ∧ (lit.calm ∧ lit.eeprom.wf ∧ lit.loader.transfer = none ∧ lit.loader.storeInFlight = false)
      ∧ ((transferring lit).calm ∧ (transferring lit).loader.transfer = some write60)
      ∧ ((transferring lit).loader.storeInFlight = true)
      ∧ (cycling.calm ∧ cycling.loader.storeInFlight = true ∧ cycling.loader.transfer = none) := by decide

theorem witness_RestartWaitsForItsAnswer :
    ((ordered 8 [] lit).ordered .restart (orderOf 31 8 []) ∧ (ordered 8 [] lit).bus.rxQueue = [orderTo 31 8 []]
        ∧ (orderOf 31 8 []).mask = 31 ∧ lit.stn ≠ 0 ∧ (ordered 8 [] lit).bus.answers.length < 4)
      ∧ (queued [orderTo 0 8 []] lit).ordered .restart (orderOf 0 8 []) := by decide

theorem witness_SleepAndWakeAct :
    ((ordered 9 [] (outside .dark lit)).ordered .sleep (orderOf 31 9 []))
      ∧ (ordered 9 [] leaving).ordered .sleep (orderOf 31 9 [])
      ∧ ((ordered 9 [] lit).ordered .sleep (orderOf 31 9 []) ∧ (ordered 9 [] lit).life.state = .lit)
      ∧ ((ordered 9 [] joining).ordered .sleep (orderOf 31 9 []) ∧ joining.life.state = .joining)
      ∧ ((ordered 9 [] (outside .sleep lit)).ordered .sleep (orderOf 31 9 [])
        ∧ (outside .sleep lit).life.state.inSky = false)
      ∧ (ordered 10 [] (outside .sleep lit)).ordered .wake (orderOf 31 10 [])
      ∧ (ordered 10 [] lit).ordered .wake (orderOf 31 10 []) := by decide

/-! ### Witnesses: the send half -/

/-- With one answer in the FIFO. -/
def answering (s : State) : State :=
  s.setBus { s.bus with answers := [{ serial := 500, code := 5, result := 0, bytes := [] }] }

theorem witness_TransmitterGainsTheLine :
    (lit.calm ∧ lit.bus.txState ≠ .gap ∧ lit.bus.txState ≠ .backoff ∧ lit.bus.txState ≠ .lead)
      ∧ ((transmitting .gap true false lit).calm ∧ (transmitting .gap true false lit).bus.txState = .gap)
      ∧ ((transmitting .backoff true false lit).calm ∧ (transmitting .backoff true false lit).bus.txState = .backoff)
      ∧ (let s := transmitting .lead true true leaving
         s.calm ∧ s.bus.txState = .lead ∧ s.noticeSendable = true
          ∧ s.life.handover = some { kind := .leave, start := 1000, code := 4, reason := .lampLow })
      ∧ (let s := answering (transmitting .lead true false lit)
         s.calm ∧ s.noticeSendable = false ∧ s.answerSendable = true
          ∧ s.bus.answers = { serial := 500, code := 5, result := 0, bytes := [] } :: [])
      ∧ (let s := transmitting .lead true false lit
         s.calm ∧ s.noticeSendable = false ∧ s.answerSendable = false ∧ s.statusSendable = true)
      ∧ (let s := transmitting .lead false false lit
         s.calm ∧ s.noticeSendable = false ∧ s.answerSendable = false ∧ s.statusSendable = false) := by decide

theorem witness_CollisionBacksOffOrAbandons :
    (lit.calm ∧ lit.bus.txState ≠ .sending)
      ∧ (sending.calm ∧ sending.bus.txState = .sending ∧ sending.bus.attempts < 15
        ∧ (12291 : BitVec 16).getLsbD 0 = (sending.bus.lfsr.getLsbD 15 ^^ sending.bus.lfsr.getLsbD 13
          ^^ sending.bus.lfsr.getLsbD 12 ^^ sending.bus.lfsr.getLsbD 10)
        ∧ ∀ i, i < 15 → (12291 : BitVec 16).getLsbD (i + 1) = sending.bus.lfsr.getLsbD i)
      ∧ (let s := sending.setBus { sending.bus with attempts := 15 }
         s.calm ∧ s.bus.txState = .sending ∧ 15 ≤ s.bus.attempts) := by decide

theorem witness_MessageSentFreesTheLine :
    (lit.calm ∧ lit.bus.txState ≠ .sending) ∧ sending.calm ∧ sending.bus.txState = .sending := by decide

/-! ### Witnesses: pixels, ramps and invariants -/

/-- The cell of the worked pixel's exponent with corners 0, 16, 32 and 48. -/
def cell : Cell :=
  let n (u : Nat) : Node := { u := u, v := u, entryA := 65535, entryB := 65535 }
  { cellExp := 5, fx := 31, fy := 31, n00 := n 0, n10 := n 16, n01 := n 32, n11 := n 48 }

/-- A cell whose first corner names zone 1 with t = 1024, in entry A or in entry B, and the others nothing. -/
def seamCell : Cell := { cell with fx := 0, fy := 0, n00 := { cell.n00 with entryA := 8192 + 1024 } }

theorem witness_InterpolationWeightAndGainStayInRange_zones :
    (∃ names : Nat → Nat → Prop, (∀ w t, names w t ↔ w ≠ 65535 ∧ w / 8192 % 8 = 1 ∧ w % 8192 = t)
        ∧ names 9216 1024 ∧ ¬names 65535 8191)
      ∧ (∀ n ∈ [cell.n00, cell.n10, cell.n01, cell.n11], n.entryFor 1 = none)
      ∧ (∃ n ∈ [seamCell.n00, seamCell.n10, seamCell.n01, seamCell.n11], n.entryFor 1 ≠ none)
      ∧ ({ cell.n00 with entryB := 9216 } : Node).entryFor 1 = some 1024
      ∧ ({ cell.n00 with entryA := 9217, entryB := 9216 } : Node).entryFor 1 = some 1025
      ∧ zoneT lit seamCell 1 = some 1024
      ∧ ∃ W : Nat → Nat, W 0 = 4096 ∧ W 8 = 832 ∧ ∀ z, z < 8 → W (z + 1) = match zoneT lit seamCell z with
        | some t =>
          let shapedT := shaped (lit.zone z).shapeInUse t
          W z * (shapedT + (lit.zone z).m * (4096 - shapedT) / 64) / 4096
        | none => W z :=
  ⟨⟨_, fun _ _ => Iff.rfl, by decide, by decide⟩, by decide, by decide, by decide, by decide, by decide,
    fun n => if n ≤ 1 then 4096 else 832, by decide⟩

theorem witness_InterpolationWeightAndGainStayInRange :
    (cell.fx < 2 ^ cell.cellExp ∧ cell.fy < 2 ^ cell.cellExp
        ∧ ∀ n ∈ [cell.n00, cell.n10, cell.n01, cell.n11], 0 ≤ n.u ∧ n.u ≤ 48)
      ∧ ({ cell with fx := 0, fy := 0 } : Cell).fx = 0
      ∧ (lit.level.sapp ≤ 32768 ∧ lit.level.dapp ≤ 1024 ∧ lit.life.fade ≤ 64
        ∧ ∀ z, z < 8 → (lit.zone z).m ≤ 64 ∧ (lit.zone z).shapeInUse ≤ 16)
      ∧ ∀ z, 8 ≤ z → (lit.zone z).m ≤ 64 ∧ (lit.zone z).shapeInUse ≤ 16 := by
  refine ⟨by decide, by decide, by decide, fun z hz => ?_⟩
  have beyond : lit.zone z = Zone.disabled := by
    have none : lit.zones[z]? = none := List.getElem?_eq_none hz
    simp [State.zone, none]
  rw [beyond]
  decide

theorem witness_RampValueFollowsRecord :
    (32767 < ((999 : FrameNo) - 1000).toNat) ∧ ((1000 : FrameNo) - 1000).toNat ≤ 32767
      ∧ ((32768 : FrameNo) + 999 - 1000).toNat ≤ 32767 ∧ (8 + 56 = 64) := by decide

/-- An input frame of 2 x 2 pixels shown. -/
def showing : State :=
  lit.setBuffers [{ FrameBuffer.reset with
    state := .shown, rows := [(0, [pixel 1, pixel 2]), (1, [pixel 3, pixel 4])] }, .reset, .reset]

theorem witness_EveryPixelCodeIsInRange_sample :
    (showing.settings.hdr.inW ≤ 32 / 16 ∧ 31 / 16 < showing.settings.hdr.inW ∧ 8 / 16 < showing.settings.hdr.inH)
      ∧ (lit.setPattern .flat).patternSource = .flat ∧ (lit.setPattern .grid).patternSource = .grid
      ∧ (lit.setPattern .zonemap).patternSource = .zonemap
      ∧ (lit.patternSource = .input ∧ ∀ b ∈ lit.buffers, b.state ≠ .shown)
      ∧ (showing.patternSource = .input ∧ 0 < showing.buffers.length ∧ (showing.buffer 0).state = .shown)
      ∧ ∃ px : Nat → Nat → Pixel, ∀ col ∈ [0, 1], ∀ row ∈ [0, 1],
        (rowOf (showing.buffer 0).rows row)[col]? = some (px col row) :=
  ⟨by decide, by decide, by decide, by decide, by decide, by decide,
    fun col row => pixel (1 + col + 2 * row), by decide⟩

theorem witness_EveryPixelCodeIsInRange_lift : ∃ (black : Nat → Nat) (member : Nat → Bool),
    (∀ z, black z = (lit.peer (lit.zone z).neighbour).black
      ∧ (member z = true ↔ (lit.zone z).enabled = true ∧ (lit.peer (lit.zone z).neighbour).state = .live
          ∧ (lit.peer (lit.zone z).neighbour).reported ≠ some .service))
      ∧ (List.range 8).filter member = [1, 2] ∧ black 1 = 180 ∧ liftCeiling lit = 180 :=
  ⟨_, fun z => decide ((lit.zone z).enabled = true ∧ (lit.peer (lit.zone z).neighbour).state = .live
    ∧ (lit.peer (lit.zone z).neighbour).reported ≠ some .service), fun z => ⟨rfl, by simp⟩, by decide⟩

theorem witness_EveryPixelCodeIsInRange :
    (smallRaster.life.state = .service)
      ∧ ((outside .dark lit).life.state ≠ .service ∧ (outside .dark lit).life.fade = 0)
      ∧ (lit.life.state ≠ .service ∧ (cellAt lit 0 0).anyVoid = true ∧ lit.life.fade ≠ 0)
      ∧ (let s := lit.setSettings { lit.settings with mesh := List.replicate 9 cell.n11 }
         s.life.fade ≠ 0 ∧ (cellAt s 0 0).anyVoid = false)
      ∧ 63 < lit.settings.hdr.outW ∧ 63 < lit.settings.hdr.outH := by decide

/-- A station at work that is about to take a falling edge. -/
def stepping : State := { lit with pending := [.frameLineFall 5] }

theorem witness_EveryStepKeepsBounds :
    (∃ u, step stepping = .next u) ∧ EepromCanonical stepping ∧ WithinBounds stepping
      ∧ GeneratorRuns stepping ∧ LevelsInRange stepping :=
  ⟨⟨_, rfl⟩, by decide, by decide, by decide, by decide⟩

theorem witness_EveryStepKeepsFadeAndCauses :
    (∃ u, step stepping = .next u) ∧ FadeAgrees stepping ∧ CausesMirror stepping ∧ StartsInOrder stepping
      ∧ ScanInStep stepping ∧ stepping.scan ≠ none :=
  ⟨⟨_, rfl⟩, by decide, by decide, by decide, by decide, by decide⟩

theorem witness_EveryStepKeepsZones : (∃ u, step stepping = .next u) ∧ ZonesAgree stepping :=
  ⟨⟨_, rfl⟩, by decide⟩

theorem witness_EveryStepKeepsBuffers : (∃ u, step stepping = .next u) ∧ BuffersAgree stepping :=
  ⟨⟨_, rfl⟩, by decide⟩

theorem witness_EveryStepKeepsOwnEntryCleared :
    (∃ u, step stepping = .next u) ∧ OwnEntryCleared stepping := ⟨⟨_, rfl⟩, by decide⟩

theorem witness_FirstFaultIsKept :
    FaultUnit.clear.record = none ∧ WithinBounds (lit.report .thermal 7) ∧ (lit.report .thermal 7).faults.record.isSome = true
      ∧ (Instr.readFaultRecord) ≠ .clear := by decide

theorem witness_StatusReadsBack :
    (lit.life.state ≠ .start ∧ lit.life.state ≠ .measure ∧ lit.life.state ≠ .sleep
        ∧ lit.level.capacity ≤ 4095 ∧ lit.photo.black ≤ 4095 ∧ (∀ h ∈ lit.life.handover, h.code ≤ 6)
        ∧ LevelsInRange lit ∧ lit.zones.length = 8
        ∧ ∀ z ∈ lit.zones, z.neighbour ≤ 255 ∧ z.configuredShape ≤ 255)
      ∧ LevelsInRange leaving ∧ ∀ h ∈ leaving.life.handover, h.code ≤ 6 := by decide

end Sys2Proof.Tests
end

section
/-! PROOFS. The pixel path's family: the reset values, the raster as time runs, the orders that act on the
light, the mark's choice of a buffer, and the arithmetic of a pixel. -/

namespace Sys2Proof.Machine

/-! ### Reset values -/

/-- A list of copies of its default value reads as that value, beyond its end too. -/
theorem getD_replicate_default {α : Type} (n i : Nat) (d : α) : (List.replicate n d).getD i d = d := by
  rw [List.getD_eq_getElem?_getD, List.getElem?_replicate]
  split <;> rfl

/-- Every zone record of a reset part is disabled, whatever its index (R28, R29). -/
theorem reset_zone (z : Nat) : State.reset.zone z = .disabled :=
  getD_replicate_default 8 z _

/-- Every entry of a reset peer table is cleared, whatever the station number (R87). -/
theorem reset_peer (n : Nat) : State.reset.peer n = .cleared := by
  cases n with
  | zero => rfl
  | succ n => exact getD_replicate_default 31 n _

/-- Every buffer record of a reset part is free and of sequence 0 (R146). -/
theorem reset_buffer (b : Nat) : State.reset.buffer b = .reset :=
  getD_replicate_default 3 b _

/-- Settles O6: each owner's table is the value that `State.reset` was given for it. -/
theorem resetLeavesEveryOwnersTable : Obligations.ResetLeavesEveryOwnersTable := by
  unfold Obligations.ResetLeavesEveryOwnersTable
  refine ⟨rfl, rfl, ⟨rfl, rfl⟩, fun z _ => reset_zone z, ⟨rfl, fun n _ => reset_peer n⟩, rfl, rfl, rfl,
    rfl, fun b _ => ?buffers, rfl, rfl, rfl, rfl, rfl, rfl, rfl, rfl, rfl, rfl, rfl, rfl, ?counters⟩
  case buffers => rw [reset_buffer]; exact ⟨rfl, rfl⟩
  case counters => decide

/-! ### The raster as time runs -/

/-- With no raster in flight nothing leaves. -/
theorem emitUntil_of_none {s : State} (h : s.encoder.raster = none) (t : Nat) : emitUntil s t = s := by
  simp [emitUntil, h]

/-- Before the end of the raster, the positions due by then leave. -/
theorem emitUntil_before_end {s : State} {r : Raster} {t : Nat} (h : s.encoder.raster = some r)
    (ht : t < r.began + 2 * rasterSize s) (hn : r.next ≤ (t - r.began + 1) / 2) :
    (emitUntil s t).encoder = { s.encoder with
      raster := some { r with next := (t - r.began + 1) / 2 },
      sent := s.encoder.sent
        ++ (List.range' r.next ((t - r.began + 1) / 2 - r.next)).map (linkCode s) } := by
  have hdue : max r.next (positionsDue (rasterSize s) r.began t) = (t - r.began + 1) / 2 := by
    unfold positionsDue; omega
  simp only [emitUntil, h, hdue, linkCodes, if_neg (Nat.not_le.2 ht), State.setEncoder_encoder]

/-- From the end of the raster on, all the rest has left and the raster is closed. -/
theorem emitUntil_from_end {s : State} {r : Raster} {t : Nat} (h : s.encoder.raster = some r)
    (ht : r.began + 2 * rasterSize s ≤ t) (hn : r.next ≤ rasterSize s) :
    (emitUntil s t).encoder = { s.encoder with
      raster := none, sent := [],
      closed := s.encoder.sent ++ (List.range' r.next (rasterSize s - r.next)).map (linkCode s) } := by
  have hdue : max r.next (positionsDue (rasterSize s) r.began t) = rasterSize s := by
    unfold positionsDue; omega
  simp only [emitUntil, h, hdue, linkCodes, if_pos ht, State.setEncoder_encoder]

/-- A clock that runs past the end of the raster closes it. -/
theorem advanceTo_from_end {s : State} {r : Raster} {t : Nat} (hlt : s.now < t)
    (h : s.encoder.raster = some r) (ht : r.began + 2 * rasterSize s ≤ t) (hn : r.next ≤ rasterSize s) :
    advanceTo t s = { s with
      now := t, scan := (scanUntil s t).scan, converter := (scanUntil s t).converter,
      encoder := { s.encoder with
        raster := none, sent := [],
        closed := s.encoder.sent
          ++ (List.range' r.next (rasterSize s - r.next)).map (linkCode s) } } := by
  rw [advanceTo_later hlt, emitUntil_from_end h ht hn]

/-- Settles O5, by what the link has sent before, within and from the end of the raster. -/
theorem rasterLeavesAsTimeRuns : Obligations.RasterLeavesAsTimeRuns := by
  unfold Obligations.RasterLeavesAsTimeRuns
  refine ⟨fun _ _ h => advanceTo_past h, fun t s hlt h => ?idle, fun t s r hlt h ht hn => ?within,
    fun t s r hlt h ht hn => advanceTo_from_end hlt h ht hn, fun s r t hc h ht hlt hn => ?done⟩
  case idle => rw [advanceTo_later hlt, emitUntil_of_none h]
  case within => rw [advanceTo_later hlt, emitUntil_before_end h ht hn]
  case done =>
    have hd : s.rasterEnd = some t := by simp [State.rasterEnd, h, ht]
    show Host.Outcome.next (atDeadline State.rasterEnd (fun s => s) s) = _
    rw [atDeadline_of_calm hc hd, advanceTo_from_end hlt h (Nat.le_of_eq ht.symm) hn]

/-! ### DARK, LIGHT, PATTERN and CLEAR -/

/-- An order at the head of the queue that its command takes is popped and carried out, and then the
transmitter moves. -/
theorem whenRunning_withOrder {s : State} {c : Instr} {o : Order} (h : s.ordered c o)
    (carry : Message → Order → State → State) :
    ∃ m, whenRunning (withOrder c.takesOrder carry) s = refreshTx (carry m o (popQueue s)) := by
  obtain ⟨hc, ho, ha, hs⟩ := h
  obtain ⟨m, -, -, -, -, hw⟩ := withOrder_of_head (carry := carry) ho ha
  exact ⟨m, by rw [whenRunning_of_calm hc, hw, if_pos hs]⟩

/-- An order whose argument length is its code's comes to what the order does, and that is answered. -/
theorem whenRunning_settleOrder {s : State} {c : Instr} {o : Order} (h : s.ordered c o)
    (hl : o.args.length = argumentBytes o.code) (act : Order → State → Settled) :
    whenRunning (withOrder c.takesOrder (settleOrder act)) s
      = refreshTx (answerOrder o (act o (popQueue s)).result (act o (popQueue s)).bytes
          (act o (popQueue s)).after) := by
  obtain ⟨m, hm⟩ := whenRunning_withOrder h (settleOrder act)
  rw [hm, settleOrder, if_pos hl]

/-- A command that takes the orders of one code finds that code at the head. -/
theorem code_of_ordered {s : State} {c : Instr} {o : Order} {n : Nat} (h : s.ordered c o)
    (hc : c.takesOrder = hasCode n) : o.code = n := by
  obtain ⟨-, -, htakes, -⟩ := h
  rw [hc] at htakes
  exact beq_iff_eq.1 htakes

/-- DARK on a part that holds no light in the sky, or holds HOLD already, sets the flag and the cause. -/
theorem setHoldDark_of_no_leave {s : State}
    (h : s.life.causes.hold = true ∨ s.life.state ≠ .joining ∧ s.life.state ≠ .lit) :
    setHoldDark s = s.setLife { s.life with
      holdDark := true, causes := { s.life.causes with hold := true } } := by
  rcases causeAppears_cases (s.setLife { s.life with holdDark := true }) .hold with
    ⟨hin, he⟩ | ⟨hout, hst, -⟩ | ⟨-, -, -, he⟩
  · have hhold : s.life.causes.hold = true := hin
    rw [setHoldDark, he, ← hhold]
  · have hhold : s.life.causes.hold = false := hout
    rcases h with h | ⟨hj, hl⟩
    · simp [h] at hhold
    · exact absurd hst (not_or.2 ⟨hj, hl⟩)
  · rw [setHoldDark, he]; rfl

/-- DARK on a part with light in the sky and no HOLD starts a leave of reason HOLD. -/
theorem setHoldDark_of_leave {s : State} (h : s.life.causes.hold = false)
    (hst : s.life.state = .joining ∨ s.life.state = .lit) :
    setHoldDark s = enterLeaving .hold (s.setLife { s.life with
      holdDark := true, causes := { s.life.causes with hold := true } }) := by
  rcases causeAppears_cases (s.setLife { s.life with holdDark := true }) .hold with
    ⟨hin, -⟩ | ⟨-, -, he⟩ | ⟨-, hj, hl, -⟩
  · have hhold : s.life.causes.hold = true := hin
    simp [h] at hhold
  · rw [setHoldDark, he]; rfl
  · exact absurd hst (not_or.2 ⟨hj, hl⟩)

/-- A leave whose ramp is known: the record, the fade at once and the two wanted flags (R58, R60). -/
theorem enterLeaving_eq {s : State} {reason : Reason} {ramp : RampRecord}
    (hbase : ramp.base = leaveBase s.life s.handoverStart) (hstart : ramp.start = s.handoverStart)
    (hstep : ramp.step = rampStep (s.settings.hdr.rampCode reason)) (hup : ramp.up = false) :
    enterLeaving reason s = { s with
      life := { s.life with
        state := .leaving, fade := ramp.value s.timer.number, fadeRamp := some ramp,
        handover := some {
          kind := .leave, start := ramp.start, code := s.settings.hdr.rampCode reason,
          reason := reason } },
      level := { s.level with
        scaleTarget := scaleTargetOf s.level.capacity s.settings.hdr.floor s.peers },
      bus := { s.bus with handoverWanted := true, statusWanted := true } } := by
  obtain ⟨base, start, step, up⟩ := ramp
  dsimp only at hbase hstart hstep hup
  subst hbase hstart hstep hup
  rfl

/-- A pattern order with a source in range sets the source, the flat level for FLAT, and ends the INPUT
cause for a source other than INPUT (R13, R149). -/
theorem actPattern_of_source {o : Order} (h : byteAt o.args 0 ≤ 3) (s : State) :
    actPattern o s = carriedOut { s with
      patternSource := if byteAt o.args 0 = 0 then .input
        else if byteAt o.args 0 = 1 then .flat
        else if byteAt o.args 0 = 2 then .grid else .zonemap,
      flatLevel := if byteAt o.args 0 = 1 then wordAt o.args 1 else s.flatLevel,
      life := { s.life with causes := { s.life.causes with
        input := s.life.causes.input && decide (byteAt o.args 0 = 0) } } } := by
  have hin : (byteAt o.args 0 = 0 ∨ byteAt o.args 0 = 1) ∨ byteAt o.args 0 = 2 ∨ byteAt o.args 0 = 3 := by
    omega
  rcases hin with (h0 | h1) | h2 | h3
  · simp [actPattern, h0, patternOf, State.setPattern]
  · simp [actPattern, h1, patternOf, State.setPattern, State.setFlatLevel, causeClears, State.setLife,
      CauseSet.put]
  · simp [actPattern, h2, patternOf, State.setPattern, causeClears, State.setLife, CauseSet.put]
  · simp [actPattern, h3, patternOf, State.setPattern, causeClears, State.setLife, CauseSet.put]

/-- Settles O42: each order is popped, settled by its arguments and answered; what it does is said by the
lemma of its own operation. -/
theorem darkLightPatternAndClearAct : Obligations.DarkLightPatternAndClearAct := by
  unfold Obligations.DarkLightPatternAndClearAct
  intro s p o hp
  have hpop : popQueue s = p := hp.symm
  refine ⟨fun ho hl => ?dark, fun ho hl => ?light, fun ho hl => ?pattern, fun ho hl => ?clear⟩
  all_goals have hcode := code_of_ordered ho rfl
  case dark =>
    have hrun : exec .dark s = .next (refreshTx (answerOrder o .done [] (setHoldDark p))) := by
      rw [← hpop]
      exact congrArg _ (whenRunning_settleOrder ho (by rw [hl, hcode]; rfl) actDark)
    refine ⟨fun h => ?_, fun ramp hhold hbase hstart hstep hup => ?_⟩
    · rw [hrun, setHoldDark_of_no_leave (by rwa [hp]), hp]; rfl
    · have hsky : s.life.state = .joining ∨ s.life.state = .lit :=
        hbase.symm.imp And.left And.left
      have hleave : ramp.base = leaveBase s.life s.handoverStart := by
        rcases hbase with ⟨hst, hb⟩ | ⟨hst, old, hold, hb⟩
        · simp [leaveBase, hst, hb]
        · simp [leaveBase, hst, hold, hb, State.handoverStart]
      rw [hrun, setHoldDark_of_leave (by rwa [hp]) (by rwa [hp]),
        enterLeaving_eq (ramp := ramp) (by rw [hp]; exact hleave) (by rw [hp]; exact hstart)
          (by rw [hp]; exact hstep) hup, hp]
      rfl
  case light =>
    have hrun := whenRunning_settleOrder ho (by rw [hl, hcode]; rfl) actLight
    rw [hpop] at hrun
    subst hp
    refine ⟨fun h => ?_, fun h => ?_⟩
    · rw [actLight, if_pos h] at hrun
      exact congrArg _ hrun
    · rw [actLight, if_neg h] at hrun
      exact congrArg _ hrun
  case pattern =>
    have hrun := whenRunning_settleOrder ho (by rw [hl, hcode]; rfl) actPattern
    rw [hpop] at hrun
    subst hp
    refine ⟨fun h => ?_, fun h => ?_⟩
    · rw [actPattern, if_pos h] at hrun
      exact congrArg _ hrun
    · rw [actPattern_of_source h] at hrun
      exact congrArg _ hrun
  case clear =>
    have hrun := whenRunning_settleOrder ho (by rw [hl, hcode]; rfl) actClear
    rw [hpop] at hrun
    subst hp
    exact congrArg _ hrun

end Sys2Proof.Machine
end

section
/-! PROOFS. The frame mark's choice of a buffer (R147), the raster that it cuts and the one it begins. -/

namespace Sys2Proof.Machine

/-! ### The newest READY buffer -/

/-- Of two sequences at most one is ahead of the other. -/
theorem ahead_asymm {a b : FrameNo} (h : ahead a b = true) : ahead b a = false := by
  simp only [ahead, Bool.and_eq_true, decide_eq_true_eq, Bool.and_eq_false_iff, decide_eq_false_iff_not] at *
  bv_omega

/-- None is picked exactly when no buffer is READY. -/
theorem pickReady_eq_none_iff {better : FrameNo → FrameNo → Bool} {bs : List FrameBuffer} {k : Nat} :
    pickReady better bs k = none ↔ ∀ b ∈ bs, b.state ≠ .ready := by
  induction bs generalizing k with
  | nil => simp [pickReady]
  | cons b bs ih =>
    rw [List.forall_mem_cons, ← ih (k := k + 1), pickReady]
    cases htail : pickReady better bs (k + 1) with
    | none => simp
    | some jr => by_cases hb : b.state = .ready ∧ better jr.2 b.sequence = false <;> simp [hb]

/-- What is picked is the sequence of a READY buffer of the list. -/
theorem pickReady_mem {better : FrameNo → FrameNo → Bool} {bs : List FrameBuffer} {k i : Nat} {q : FrameNo}
    (h : pickReady better bs k = some (i, q)) : ∃ b ∈ bs, b.state = .ready ∧ b.sequence = q := by
  induction bs generalizing k i q with
  | nil => simp [pickReady] at h
  | cons b bs ih =>
    simp only [List.mem_cons, exists_eq_or_imp]
    cases htail : pickReady better bs (k + 1) with
    | none =>
      simp only [pickReady, htail, Option.ite_none_right_eq_some, Option.some.injEq, Prod.mk.injEq] at h
      exact .inl ⟨h.1, h.2.2⟩
    | some jr =>
      simp only [pickReady, htail] at h
      split at h <;> simp only [Option.some.injEq, Prod.mk.injEq] at h
      · rename_i hb
        exact .inl ⟨hb.1, h.2⟩
      · exact .inr (h.2 ▸ ih htail)

/-- The READY buffer whose sequence is ahead of every other READY one's is the one picked. -/
theorem pickReady_newest {bs : List FrameBuffer} {i k : Nat} {b : FrameBuffer} (hi : bs[i]? = some b)
    (hb : b.state = .ready)
    (hnew : ∀ j c, bs[j]? = some c → c.state = .ready → j ≠ i → ahead b.sequence c.sequence = true) :
    pickReady ahead bs k = some (k + i, b.sequence) := by
  induction bs generalizing i k with
  | nil => simp at hi
  | cons a bs ih =>
    cases i with
    | zero =>
      obtain rfl : a = b := by simpa using hi
      cases htail : pickReady ahead bs (k + 1) with
      | none => simp [pickReady, htail, hb]
      | some jq =>
        obtain ⟨j, q⟩ := jq
        obtain ⟨c, hc, hr, rfl⟩ := pickReady_mem htail
        obtain ⟨n, hn⟩ := List.mem_iff_getElem?.1 hc
        have hlt := ahead_asymm (hnew (n + 1) c (by simpa using hn) hr (by omega))
        simp [pickReady, htail, hb, hlt]
    | succ i =>
      have htail : pickReady ahead bs (k + 1) = some (k + 1 + i, b.sequence) :=
        ih (by simpa using hi) fun j c hj hr hne =>
          hnew (j + 1) c (by simpa using hj) hr (by omega)
      have hkeep : ¬(a.state = .ready ∧ ahead b.sequence a.sequence = false) := fun ⟨hr, hf⟩ => by
        simp [hnew 0 a rfl hr (by omega)] at hf
      simp only [pickReady, htail, if_neg hkeep]
      congr 2
      omega

/-- A buffer is chosen exactly when one is READY. -/
theorem newestReady_eq_none_iff {bs : List FrameBuffer} :
    newestReady bs = none ↔ buffersIn .ready bs = 0 := by
  simp [newestReady, pickReady_eq_none_iff, buffersIn, List.countP_eq_zero]

/-! ### The Presenter's choice (R147) -/

/-- With a newest READY buffer, every record is chosen or given up by its index. -/
theorem presenterChoice_buffer {s : State} {i j : Nat} (h : newestReady s.buffers = some i)
    (hj : j < s.buffers.length) : (presenterChoice s).buffer j = (s.buffer j).chosen i j := by
  have hbs : (presenterChoice s).buffers = s.buffers.zipIdx.map fun p => p.1.chosen i p.2 := by
    unfold presenterChoice
    rw [h]
    dsimp only
    split <;> rfl
  simp [State.buffer, hbs, List.getD_eq_getElem?_getD, hj]

/-- With no READY buffer the records stay as they are. -/
theorem presenterChoice_buffers_of_none {s : State} (h : buffersIn .ready s.buffers = 0) :
    (presenterChoice s).buffers = s.buffers := by
  unfold presenterChoice
  rw [newestReady_eq_none_iff.2 h]
  dsimp only
  split <;> simp

/-- The choice counts DROP for a second READY buffer and REPEAT for a buffer shown again. -/
theorem presenterChoice_faults {s : State} (hr : buffersIn .ready s.buffers ≤ 2)
    (hs : buffersIn .shown s.buffers ≤ 1) :
    (presenterChoice s).faults = { s.faults with counters := { s.faults.counters with
      drop := if buffersIn .ready s.buffers = 2 then min 65535 (s.faults.counters.drop + 1)
        else s.faults.counters.drop,
      repeated := if buffersIn .ready s.buffers = 0 ∧ buffersIn .shown s.buffers = 1
        then min 65535 (s.faults.counters.repeated + 1) else s.faults.counters.repeated } } := by
  unfold presenterChoice
  cases hn : newestReady s.buffers with
  | none =>
    have h0 := newestReady_eq_none_iff.1 hn
    by_cases h1 : buffersIn .shown s.buffers = 1
    · simp [h0, h1, CounterBlock.raise, satInc]
    · simp [h0, h1, show ¬1 ≤ buffersIn .shown s.buffers by omega]
  | some i =>
    have h0 : buffersIn .ready s.buffers ≠ 0 := fun h => by
      simp [newestReady_eq_none_iff.2 h] at hn
    by_cases h2 : buffersIn .ready s.buffers = 2
    · simp [h2, CounterBlock.raise, satInc]
    · simp [h0, h2, show ¬2 ≤ buffersIn .ready s.buffers by omega]

/-! ### The raster at a mark (R25, R151, R153) -/

/-- A raster in flight is closed with its rest as code 0; without one the encoder stays. -/
theorem cutRaster_closed (s : State) :
    (s.encoder.raster = none → (cutRaster s).encoder.closed = s.encoder.closed)
      ∧ ∀ r, s.encoder.raster = some r → (cutRaster s).encoder.closed
          = s.encoder.sent ++ List.replicate (rasterSize s - r.next) black := by
  unfold cutRaster
  cases s.encoder.raster <;> simp

/-- A cut is counted, and only that. -/
theorem cutRaster_faults (s : State) :
    (cutRaster s).faults = { s.faults with counters := { s.faults.counters with
      cut := if s.encoder.raster.isSome then min 65535 (s.faults.counters.cut + 1)
        else s.faults.counters.cut } } := by
  unfold cutRaster
  cases s.encoder.raster <;> simp [CounterBlock.raise, satInc]

theorem rasterPhase_still (f : FrameNo) : rasterPhase .still f = (0, 0) := rfl

theorem rasterPhase_alternate (f : FrameNo) : rasterPhase .alternate f
    = if f.toNat % 4 = 1 ∨ f.toNat % 4 = 3 then (1, 1) else (0, 0) := by
  unfold rasterPhase
  split <;> simp_all

theorem rasterPhase_rotate (f : FrameNo) : rasterPhase .rotate f
    = if f.toNat % 4 = 1 then (1, 0) else if f.toNat % 4 = 2 then (1, 1)
      else if f.toNat % 4 = 3 then (0, 1) else (0, 0) := by
  unfold rasterPhase
  split <;> simp_all

theorem rasterPhase_swap (f : FrameNo) : rasterPhase .swap f
    = if f.toNat % 4 = 1 ∨ f.toNat % 4 = 3 then (0, 1) else (0, 0) := by
  unfold rasterPhase
  split <;> simp_all

/-! ### The parts of the mark -/

/-- Of a mark's work, the Presenter's choice alone touches the buffers. -/
theorem frameMark_buffers (s : State) :
    (frameMark s).buffers = (presenterChoice (cutRaster (timerAtMark s))).buffers := by
  simp [frameMark]

/-- Of a mark's work, the cut and the Presenter's choice alone touch the Fault Unit. -/
theorem frameMark_faults (s : State) :
    (frameMark s).faults = (presenterChoice (cutRaster (timerAtMark s))).faults := by
  simp [frameMark]

/-- Of a mark's work, the cut and the new raster alone touch the encoder. -/
theorem frameMark_encoder (s : State) :
    (frameMark s).encoder = { (cutRaster (timerAtMark s)).encoder with
      raster := some { began := s.now, next := 0 }
      phaseX := (rasterPhase s.settings.hdr.dither (s.timer.number + 1)).1
      phaseY := (rasterPhase s.settings.hdr.dither (s.timer.number + 1)).2, sent := [] } := by
  simp [frameMark]

/-- Settles O22: the cut, the Presenter's choice and the new raster, each by its own lemma. -/
theorem markChoosesBufferAndBeginsRaster : Obligations.MarkChoosesBufferAndBeginsRaster := by
  unfold Obligations.MarkChoosesBufferAndBeginsRaster
  rintro s u hu ⟨hlen, -, hshown, hready, -⟩
  have hbs : (cutRaster (timerAtMark s)).buffers = s.buffers := by simp
  have hbuf : ∀ j, (cutRaster (timerAtMark s)).buffer j = s.buffer j := fun j => by
    rw [State.buffer, hbs, State.buffer]
  have hu_bs : u.buffers = (presenterChoice (cutRaster (timerAtMark s))).buffers := by
    rw [hu, frameMark_buffers]
  have henc := frameMark_encoder s
  have hget : ∀ j, j < 3 → s.buffers[j]? = some (s.buffer j) := fun j hj => by
    simp [State.buffer, List.getD_eq_getElem?_getD, hlen, hj]
  refine ⟨fun i hi hri hnew => ?choice, fun h => ?stay, ?faults, by rw [hu, henc], by rw [hu, henc],
    fun f hf => ?phase, fun h => ?idle, fun r hr => ?cut⟩
  case choice =>
    have hpick : newestReady (cutRaster (timerAtMark s)).buffers = some i := by
      rw [hbs, newestReady, pickReady_newest (hget i hi) hri fun j c hj hrj hne => ?_]
      · simp
      · have hj3 : j < 3 := hlen ▸ (List.getElem?_eq_some_iff.1 hj).1
        obtain rfl : s.buffer j = c := Option.some.inj ((hget j hj3).symm.trans hj)
        exact hnew j hj3 hrj hne
    have hchosen : ∀ j, j < 3 → u.buffer j = (s.buffer j).chosen i j := fun j hj => by
      rw [State.buffer, hu_bs]
      exact (presenterChoice_buffer hpick (by rwa [hbs, hlen])).trans (by rw [hbuf])
    refine ⟨by rw [hchosen i hi, FrameBuffer.chosen, if_pos rfl], fun j hj hne => ?_⟩
    rw [hchosen j hj, FrameBuffer.chosen, if_neg hne]
    obtain ⟨st, q, rows⟩ := s.buffer j
    cases st <;> rfl
  case stay =>
    rw [hu_bs, presenterChoice_buffers_of_none (by rwa [hbs]), hbs]
  case faults =>
    rw [hu, frameMark_faults, presenterChoice_faults (by rwa [hbs]) (by rwa [hbs]), hbs, cutRaster_faults]
    simp
  case phase =>
    rw [hu, henc]
    subst hf
    cases s.settings.hdr.dither
    · rfl
    · exact rasterPhase_alternate _
    · exact rasterPhase_rotate _
    · exact rasterPhase_swap _
  case idle =>
    rw [hu, henc]
    exact ((cutRaster_closed _).1 (by simpa using h)).trans (by simp)
  case cut =>
    rw [hu, henc]
    refine ((cutRaster_closed _).2 r (by simpa using hr)).trans ?_
    simp [rasterSize, black]

end Sys2Proof.Machine
end

section
/-! PROOFS. The arithmetic of a pixel and its ranges: interpolation (R9, R16), blend entries (R15), weights
(R17 to R19) and gain stages (R20, R21). -/

namespace Sys2Proof.Machine

/-! ### Interpolation -/

/-- A product of a value and weights that cover a cell of w by w lies between the weighted bounds. -/
theorem weighted_sum_bounds {w x y lo hi a b c d : Nat} (hx : x ≤ w) (hy : y ≤ w)
    (ha : lo ≤ a ∧ a ≤ hi) (hb : lo ≤ b ∧ b ≤ hi) (hc : lo ≤ c ∧ c ≤ hi) (hd : lo ≤ d ∧ d ≤ hi) :
    lo * w ^ 2 ≤ a * (w - x) * (w - y) + b * x * (w - y) + c * (w - x) * y + d * x * y
      ∧ a * (w - x) * (w - y) + b * x * (w - y) + c * (w - x) * y + d * x * y ≤ hi * w ^ 2 := by
  obtain ⟨x', rfl⟩ := Nat.exists_eq_add_of_le hx
  obtain ⟨y', hy'⟩ := Nat.exists_eq_add_of_le hy
  have hsplit : ∀ n, n * (x + x') ^ 2 = n * x' * y' + n * x * y' + n * x' * y + n * x * y := fun n => by
    have hsq : (x + x') ^ 2 = (x + x') * (y + y') := by rw [Nat.pow_two, ← hy']
    rw [hsq]
    simp only [Nat.mul_add, Nat.add_mul, ← Nat.mul_assoc]
    omega
  have hmono : ∀ {m n : Nat} (p q : Nat), m ≤ n → m * p * q ≤ n * p * q := fun p q h =>
    Nat.mul_le_mul_right q (Nat.mul_le_mul_right p h)
  rw [hsplit, hsplit, Nat.add_sub_cancel_left, show x + x' - y = y' by omega]
  exact ⟨Nat.add_le_add (Nat.add_le_add (Nat.add_le_add (hmono _ _ ha.1) (hmono _ _ hb.1))
      (hmono _ _ hc.1)) (hmono _ _ hd.1),
    Nat.add_le_add (Nat.add_le_add (Nat.add_le_add (hmono _ _ ha.2) (hmono _ _ hb.2))
      (hmono _ _ hc.2)) (hmono _ _ hd.2)⟩

/-- The interpolated value lies between any bounds on the four corner values (R9). -/
theorem Cell.blend_bounds {k : Cell} {lo hi a b c d : Nat} (hx : k.fx < 2 ^ k.cellExp)
    (hy : k.fy < 2 ^ k.cellExp) (ha : lo ≤ a ∧ a ≤ hi) (hb : lo ≤ b ∧ b ≤ hi) (hc : lo ≤ c ∧ c ≤ hi)
    (hd : lo ≤ d ∧ d ≤ hi) : lo ≤ k.blend a b c d ∧ k.blend a b c d ≤ hi := by
  have hw : 2 ^ (2 * k.cellExp) = (2 ^ k.cellExp) ^ 2 := by rw [Nat.mul_comm, Nat.pow_mul]
  have hpos : 0 < (2 ^ k.cellExp) ^ 2 := Nat.pow_pos (Nat.two_pow_pos _)
  obtain ⟨hlo, hhi⟩ := weighted_sum_bounds (Nat.le_of_lt hx) (Nat.le_of_lt hy) ha hb hc hd
  rw [Cell.blend, hw]
  exact ⟨(Nat.le_div_iff_mul_le hpos).2 hlo, Nat.div_le_of_le_mul (Nat.mul_comm hi _ ▸ hhi)⟩

/-- At the node the interpolated value is the node's own (R9). -/
theorem Cell.blend_at_node {k : Cell} (hx : k.fx = 0) (hy : k.fy = 0) (a b c d : Nat) :
    k.blend a b c d = a := by
  have hpos : 0 < 2 ^ (2 * k.cellExp) := Nat.two_pow_pos _
  rw [Cell.blend, hx, hy]
  simp only [Nat.sub_zero, Nat.mul_zero, Nat.zero_mul, Nat.add_zero]
  rw [Nat.mul_assoc, ← Nat.pow_add, ← Nat.two_mul, Nat.mul_div_cancel _ hpos]

/-! ### Weights -/

/-- The smoothed coordinate stays in the range of t: with n = t + e its numerator is e³ + 3te² short of n³,
which e ≥ 1 makes positive (R17). -/
theorem smoothed_le {t : Nat} (h : t ≤ 4095) : smoothed t ≤ 4095 := by
  have hcube : ∀ n e : Nat, n = t + e → n * n ^ 2 + 2 * t ^ 3 = 3 * t ^ 2 * n + (e ^ 3 + 3 * t * e ^ 2) := by
    rintro n e rfl
    grind
  have hgap := hcube 4096 (4096 - t) (by omega)
  have hpos : 0 < (4096 - t) ^ 3 := Nat.pow_pos (by omega)
  have hnum : 3 * t ^ 2 * 4096 - 2 * t ^ 3 < 4096 * 4096 ^ 2 := by omega
  exact Nat.lt_succ_iff.1 ((Nat.div_lt_iff_lt_mul (by decide)).2 hnum)

theorem shaped_zero (t : Nat) : shaped 0 t = t := by simp [shaped]

theorem shaped_sixteen (t : Nat) : shaped 16 t = smoothed t := by simp [shaped]

/-- The shaped weight is a mean of t and the smoothed coordinate, and stays in their range (R17). -/
theorem shaped_le {a t : Nat} (ha : a ≤ 16) (ht : t ≤ 4095) : shaped a t ≤ 4095 := by
  refine Nat.div_le_of_le_mul ?_
  calc (16 - a) * t + a * smoothed t ≤ (16 - a) * 4095 + a * 4095 :=
        Nat.add_le_add (Nat.mul_le_mul_left _ ht) (Nat.mul_le_mul_left _ (smoothed_le ht))
    _ = 16 * 4095 := by rw [← Nat.add_mul, Nat.sub_add_cancel ha]

/-- The fill raises the zone weight towards 4096 and no further (R18). -/
theorem zoneWeight_le {a m t : Nat} (ha : a ≤ 16) (hm : m ≤ 64) (ht : t ≤ 4095) :
    zoneWeight a m t ≤ 4096 := by
  have hs := shaped_le ha ht
  have hfill : m * (4096 - shaped a t) / 64 ≤ 4096 - shaped a t :=
    Nat.div_le_of_le_mul (Nat.mul_le_mul_right _ hm)
  unfold zoneWeight
  omega

/-! ### Blend entries and zones -/

/-- A blend entry's word names a zone and t as R15 lays them out. -/
theorem blendEntry_eq_some_iff (w z t : Nat) :
    blendEntry w = some (z, t) ↔ w ≠ 65535 ∧ w / 8192 % 8 = z ∧ w % 8192 = t := by
  simp [blendEntry]

/-- A node's entry for a zone is entry A's where A names the zone, else entry B's (R15). -/
theorem Node.entryFor_eq_some_iff (n : Node) (z t : Nat) :
    n.entryFor z = some t ↔ blendEntry n.entryA = some (z, t)
      ∨ (∀ t', blendEntry n.entryA ≠ some (z, t')) ∧ blendEntry n.entryB = some (z, t) := by
  unfold Node.entryFor
  rcases blendEntry n.entryA with _ | ⟨a, ta⟩
  · rcases blendEntry n.entryB with _ | ⟨b, tb⟩ <;> simp
  · by_cases ha : a = z
    · simp [ha]
    · rcases blendEntry n.entryB with _ | ⟨b, tb⟩ <;> simp [ha]

/-- No corner names the zone: the pixel has no t for it (R16). -/
theorem Cell.tFor_of_none {k : Cell} {z : Nat}
    (h : ∀ n ∈ [k.n00, k.n10, k.n01, k.n11], n.entryFor z = none) : k.tFor z = none := by
  simp only [List.forall_mem_cons] at h
  obtain ⟨h00, h10, h01, h11, -⟩ := h
  simp [Cell.tFor, h00, h10, h01, h11]

/-- Some corner names the zone: t is the blend, with 4096 for a corner that does not (R16). -/
theorem Cell.tFor_of_some {k : Cell} {z : Nat}
    (h : ∃ n ∈ [k.n00, k.n10, k.n01, k.n11], n.entryFor z ≠ none) :
    k.tFor z = some (k.blend ((k.n00.entryFor z).getD 4096) ((k.n10.entryFor z).getD 4096)
      ((k.n01.entryFor z).getD 4096) ((k.n11.entryFor z).getD 4096)) := by
  unfold Cell.tFor
  split
  · simp_all
  · rfl

/-- A pixel is in a zone that is enabled and not in WAIT, that a corner names, with t below 4096 (R15, R16). -/
theorem zoneT_eq_some_iff (s : State) (k : Cell) (z t : Nat) :
    zoneT s k z = some t ↔
      (s.zone z).enabled = true ∧ (s.zone z).state ≠ .wait ∧ k.tFor z = some t ∧ t < 4096 := by
  have hused : (s.zone z).used = true ↔ (s.zone z).enabled = true ∧ (s.zone z).state ≠ .wait := by
    simp [Zone.used]
  rw [← and_assoc, ← hused, zoneT]
  cases k.tFor z with
  | none => simp
  | some u =>
    simp only [Option.ite_none_right_eq_some, Option.some.injEq]
    exact and_congr_right fun _ => ⟨fun ⟨hu, he⟩ => ⟨he, he ▸ hu⟩, fun ⟨he, hu⟩ => ⟨he ▸ hu, he⟩⟩

/-! ### The combined weight -/

/-- One zone's factor in the combined weight (R19). -/
def weighted (s : State) (k : Cell) (w z : Nat) : Nat :=
  ((zoneT s k z).map fun t =>
    w * zoneWeight (s.zone z).shapeInUse (s.zone z).m t / 4096).getD w

theorem weight_eq_foldl (s : State) (k : Cell) :
    weight s k = (List.range 8).foldl (weighted s k) 4096 := by
  unfold weight
  congr 1
  funext w z
  unfold weighted
  cases zoneT s k z <;> rfl

/-- A fold over the first n indices is the n-th value of the recurrence with its step. -/
theorem foldl_range_eq {α : Type} {f : α → Nat → α} {W : Nat → α} {n : Nat}
    (h : ∀ z, z < n → W (z + 1) = f (W z) z) : (List.range n).foldl f (W 0) = W n := by
  induction n with
  | zero => rfl
  | succ n ih =>
    rw [List.range_succ, List.foldl_append, ih fun z hz => h z (by omega)]
    exact (h n (by omega)).symm

/-- The combined weight stays in 0..4096 (R19). -/
theorem weight_le {s : State} (h : ∀ z, (s.zone z).m ≤ 64 ∧ (s.zone z).shapeInUse ≤ 16) (k : Cell) :
    weight s k ≤ 4096 := by
  rw [weight_eq_foldl]
  refine List.foldlRecOn (motive := (· ≤ 4096)) _ _ (Nat.le_refl _) fun w hw z _ => ?_
  unfold weighted
  cases hz : zoneT s k z with
  | none => exact hw
  | some t =>
    obtain ⟨-, -, -, ht⟩ := (zoneT_eq_some_iff s k z t).1 hz
    have hwz := zoneWeight_le (h z).2 (h z).1 (Nat.lt_succ_iff.1 ht)
    exact Nat.div_le_of_le_mul (Nat.mul_le_mul hw hwz)

/-- A floored product with a factor of at most the divisor stays within its bound (R20, R21). -/
theorem mul_div_le_of_le {a b c n : Nat} (ha : a ≤ c) (hb : b ≤ n) : a * b / n ≤ c :=
  Nat.div_le_of_le_mul (Nat.mul_comm c n ▸ Nat.mul_le_mul ha hb)

theorem gain1_le {s : State} (hs : s.level.sapp ≤ 32768) (hd : s.level.dapp ≤ 1024)
    (hf : s.life.fade ≤ 64) : gain1 s ≤ 32768 :=
  mul_div_le_of_le (mul_div_le_of_le hs hd) hf

theorem gain2_le {s : State} {w : Nat} (h : gain1 s ≤ 32768) (hw : w ≤ 4096) : gain2 s w ≤ 32768 :=
  mul_div_le_of_le h hw

/-- Settles O50, from the range of each stage. -/
theorem interpolationWeightAndGainStayInRange : Obligations.InterpolationWeightAndGainStayInRange := by
  unfold Obligations.InterpolationWeightAndGainStayInRange
  refine ⟨fun k lo hi hx hy => ⟨rfl, rfl, fun h => ?u, fun h => ?v, fun h0 h1 => ?node⟩,
    fun t ht => ⟨rfl, smoothed_le ht, shaped_zero t, shaped_sixteen t,
      fun a ha => ⟨rfl, shaped_le ha ht⟩⟩,
    fun n z t names hnames => ?entry,
    fun k z c hc => ⟨Cell.tFor_of_none, fun h => ?corner, fun s t => zoneT_eq_some_iff s k z t⟩,
    fun s k W h0 hW => ?weight,
    fun s x y hs hd hf hz => ?gain⟩
  case u =>
    simp only [List.forall_mem_cons] at h
    obtain ⟨h00, h10, h01, h11, -⟩ := h
    exact Cell.blend_bounds hx hy h00 h10 h01 h11
  case v =>
    simp only [List.forall_mem_cons] at h
    obtain ⟨h00, h10, h01, h11, -⟩ := h
    exact Cell.blend_bounds hx hy h00 h10 h01 h11
  case node => exact ⟨Cell.blend_at_node h0 h1 .., Cell.blend_at_node h0 h1 ..⟩
  case entry =>
    simp only [hnames, ← blendEntry_eq_some_iff]
    exact n.entryFor_eq_some_iff z t
  case corner =>
    rw [Cell.tFor_of_some h]
    simp only [hc]
    rfl
  case weight =>
    rw [weight_eq_foldl, ← h0]
    refine foldl_range_eq fun z hlt => ?_
    rw [hW z hlt]
    unfold weighted
    cases zoneT s k z <;> rfl
  case gain =>
    have hw := weight_le hz (cellAt s x y)
    have hg1 := gain1_le hs hd hf
    exact ⟨_, _, rfl, hw, rfl, mul_div_le_of_le hs hd, rfl, hg1, rfl, gain2_le hg1 hw,
      fun lin hlin => ⟨rfl, mul_div_le_of_le hlin (gain2_le hg1 hw)⟩⟩

end Sys2Proof.Machine
end

section
/-! PROOFS. A pixel from its cell to its code (R4 to R26), and its place on the link (R27). -/

namespace Sys2Proof.Machine

/-! ### The cell (R8) -/

/-- A cell has a void corner exactly when the u of one of its nodes says so. -/
theorem Cell.anyVoid_iff (k : Cell) :
    k.anyVoid = true ↔ k.n00.u = 65535 ∨ k.n10.u = 65535 ∨ k.n01.u = 65535 ∨ k.n11.u = 65535 := by
  simp [Cell.anyVoid, Node.void, or_assoc]

/-! ### The sample (R10 to R14) -/

section Sample

variable {s : State} {u v : Nat} (c : Component)

/-- Off the input raster the sample is 0. -/
theorem linIn_outside (h : s.settings.hdr.inW ≤ u / 16 ∨ s.settings.hdr.inH ≤ v / 16) :
    linIn s u v c = 0 := if_pos h

section OnRaster

variable (hu : u / 16 < s.settings.hdr.inW) (hv : v / 16 < s.settings.hdr.inH)
include hu hv

omit c in
theorem not_outside : ¬(s.settings.hdr.inW ≤ u / 16 ∨ s.settings.hdr.inH ≤ v / 16) := by omega

/-- On the input raster FLAT gives the flat level. -/
theorem linIn_flat (h : s.patternSource = .flat) : linIn s u v c = s.flatLevel := by
  simp only [linIn, if_neg (not_outside hu hv), h]

/-- On the input raster GRID gives lines of two every 64. -/
theorem linIn_grid (h : s.patternSource = .grid) :
    linIn s u v c = if u / 16 % 64 < 2 ∨ v / 16 % 64 < 2 then 65535 else 0 := by
  simp only [linIn, if_neg (not_outside hu hv), h]

/-- On the input raster ZONEMAP gives full light. -/
theorem linIn_zonemap (h : s.patternSource = .zonemap) : linIn s u v c = 65535 := by
  simp only [linIn, if_neg (not_outside hu hv), h]

/-- On the input raster INPUT gives the sample of the SHOWN buffer. -/
theorem linIn_input (h : s.patternSource = .input) : linIn s u v c = inputSample s u v c := by
  simp only [linIn, if_neg (not_outside hu hv), h]

end OnRaster

/-- While no buffer is SHOWN the sample is 0. -/
theorem inputSample_of_none_shown (h : ∀ b ∈ s.buffers, b.state ≠ .shown) : inputSample s u v c = 0 := by
  have hnone : shownBuffer s.buffers = none := by
    simpa [shownBuffer, List.findIdx?_eq_none_iff] using h
  simp only [inputSample, hnone]

/-- The first SHOWN buffer is the one shown. -/
theorem shownBuffer_eq_some {b : Nat} (hb : b < s.buffers.length) (h : (s.buffer b).state = .shown)
    (hfirst : ∀ i, i < b → (s.buffer i).state ≠ .shown) : shownBuffer s.buffers = some b := by
  have hget : ∀ i (hi : i < s.buffers.length), s.buffers[i] = s.buffer i := fun i hi => by
    simp [State.buffer, hi]
  rw [shownBuffer, List.findIdx?_eq_some_iff_getElem]
  refine ⟨hb, by simp [hget, h], fun i hi => ?_⟩
  simp [hget i (Nat.lt_trans hi hb), hfirst i hi]

/-- A fetched pixel that has been written is decoded from what was written (R11). -/
theorem fetched_of_written {b col row : Nat} {p : Pixel}
    (h : (rowOf (s.buffer b).rows row)[col]? = some p) :
    fetched s b col row c = s.settings.decode.getD (pickComponent p c).toNat 0 := by
  simp only [fetched, FrameBuffer.component, h]

/-- The neighbour of a coordinate, with the last one in place of that beyond the raster (R11). -/
theorem next_coordinate {i n : Nat} (h : i < n) : min (i + 1) (n - 1) = if i + 1 = n then i else i + 1 := by
  split <;> omega

/-- The sample of the SHOWN buffer is the blend of its four pixels (R12). -/
theorem inputSample_of_shown {b : Nat} (hu : u / 16 < s.settings.hdr.inW)
    (hv : v / 16 < s.settings.hdr.inH) (h : shownBuffer s.buffers = some b) {right below : Nat}
    (hright : right = if u / 16 + 1 = s.settings.hdr.inW then u / 16 else u / 16 + 1)
    (hbelow : below = if v / 16 + 1 = s.settings.hdr.inH then v / 16 else v / 16 + 1) :
    inputSample s u v c = bilinear (u % 16) (v % 16) (fetched s b (u / 16) (v / 16) c)
      (fetched s b right (v / 16) c) (fetched s b (u / 16) below c) (fetched s b right below c) := by
  simp only [inputSample, h, next_coordinate hu, next_coordinate hv, hright, hbelow]

end Sample

/-! ### The lift (R22, R23, R48) -/

/-- A fold of maxima is above its start and above each value, and is one of them. -/
theorem foldl_max_spec (g : Nat → Nat) (l : List Nat) (a : Nat) :
    (a ≤ l.foldl (fun m z => max m (g z)) a ∧ ∀ z ∈ l, g z ≤ l.foldl (fun m z => max m (g z)) a)
      ∧ (l.foldl (fun m z => max m (g z)) a = a
          ∨ ∃ z ∈ l, g z = l.foldl (fun m z => max m (g z)) a) := by
  induction l generalizing a with
  | nil => simp
  | cons z l ih =>
    obtain ⟨⟨hle, hall⟩, heq⟩ := ih (max a (g z))
    simp only [List.foldl_cons, List.mem_cons, forall_eq_or_imp, exists_eq_or_imp]
    refine ⟨⟨Nat.le_trans (Nat.le_max_left _ _) hle, Nat.le_trans (Nat.le_max_right _ _) hle, hall⟩, ?_⟩
    rcases heq with heq | hmem
    · rw [heq]
      rcases Nat.le_total (g z) a with h | h
      · exact .inl (Nat.max_eq_left h)
      · exact .inr (.inl (Nat.max_eq_right h).symm)
    · exact .inr (.inr hmem)

/-- The lift ceiling is the greatest neighbour black of the black-lift set (R22). -/
theorem liftCeiling_eq (s : State) : liftCeiling s
    = ((List.range 8).filter (inBlackLift s)).foldl (fun m z => max m (neighbourBlack s z)) 0 := by
  rw [List.foldl_filter]; rfl

/-- The sum of the blacks runs over the members of the black-lift set that contain the pixel (R23). -/
theorem blackSum_eq (s : State) (k : Cell) : blackSum s k
    = (((List.range 8).filter fun z => inBlackLift s z && (zoneT s k z).isSome).map
        (neighbourBlack s)).sum := by
  rw [List.sum_eq_foldl, List.foldl_map, List.foldl_filter]; rfl

theorem inBlackLift_iff (s : State) (z : Nat) : inBlackLift s z = true ↔
    (s.zone z).enabled = true ∧ (s.peer (s.zone z).neighbour).state = .live
      ∧ (s.peer (s.zone z).neighbour).reported ≠ some .service := by
  simp [inBlackLift, and_assoc]

/-! ### The four outcomes (R4 to R6) -/

section Outcomes

variable {s : State} (x y : Nat)

/-- In SERVICE the pixel is the service raster's. -/
theorem pixelCode_service (h : s.life.state = .service) : pixelCode s x y = servicePixel s x y := if_pos h

/-- Outside SERVICE, with F at 0, the pixel is black. -/
theorem pixelCode_dark (h : s.life.state ≠ .service) (hf : s.life.fade = 0) : pixelCode s x y = black := by
  simp [pixelCode, h, hf]

/-- Outside SERVICE a pixel on a void cell is black. -/
theorem pixelCode_void (h : s.life.state ≠ .service) (hv : (cellAt s x y).anyVoid = true) :
    pixelCode s x y = black := by
  simp [pixelCode, h, hv]

/-- Elsewhere each component has the code of the steps 2 to 6. -/
theorem pixelCode_lit (h : s.life.state ≠ .service) (hf : s.life.fade ≠ 0)
    (hv : (cellAt s x y).anyVoid = false) :
    pixelCode s x y = { red := componentCode s x y (cellAt s x y) .red,
                        green := componentCode s x y (cellAt s x y) .green,
                        blue := componentCode s x y (cellAt s x y) .blue } := by
  simp [pixelCode, h, hf, hv]

/-- The service raster's pixel by one value for its three components (R6). -/
theorem servicePixel_eq {n : Nat}
    (h : n = if x % 64 < 2 ∨ y % 64 < 2 ∨ x + 1 = s.settings.hdr.outW ∨ y + 1 = s.settings.hdr.outH
      then 1023 else 0) : servicePixel s x y = { red := n, green := n, blue := n } := by
  subst h
  unfold servicePixel
  split <;> rfl

theorem componentCode_le (k : Cell) (c : Component) : componentCode s x y k c ≤ 1023 := Nat.min_le_left _ _

/-- Every code lies in 0..1023, in each of the four outcomes. -/
theorem pixelCode_le : (pixelCode s x y).red ≤ 1023 ∧ (pixelCode s x y).green ≤ 1023
    ∧ (pixelCode s x y).blue ≤ 1023 := by
  by_cases h : s.life.state = .service
  · rw [pixelCode_service x y h, servicePixel_eq x y rfl]
    dsimp only
    split <;> simp
  by_cases hf : s.life.fade = 0
  · rw [pixelCode_dark x y h hf]; decide
  cases hv : (cellAt s x y).anyVoid with
  | true => rw [pixelCode_void x y h hv]; decide
  | false =>
    rw [pixelCode_lit x y h hf hv]
    exact ⟨componentCode_le .., componentCode_le .., componentCode_le ..⟩

/-- The dither offset by the parities of the position under the phase (R26). -/
theorem ditherOffset_eq (e : Encoder) : ditherOffset e x y
    = if (x + e.phaseX) % 2 = 0 then (if (y + e.phaseY) % 2 = 0 then 0 else 3)
      else if (y + e.phaseY) % 2 = 0 then 2 else 1 := rfl

end Outcomes

/-! ### The order of the pixels (R27) -/

/-- A coordinate below n, mirrored when the strap says so. -/
def mirrored (strap : Bool) (n i : Nat) : Nat := if strap then n - 1 - i else i

theorem mirrored_lt {n i : Nat} (strap : Bool) (h : i < n) : mirrored strap n i < n := by
  unfold mirrored
  split <;> omega

theorem mirrored_mirrored {n i : Nat} (strap : Bool) (h : i < n) :
    mirrored strap n (mirrored strap n i) = i := by
  cases strap
  · rfl
  · simp only [mirrored, if_true]; omega

theorem logicalPosition_eq (s : State) (p : Nat) : logicalPosition s p
    = (mirrored s.straps.mirx s.settings.hdr.outW (p % s.settings.hdr.outW),
       mirrored s.straps.flipy s.settings.hdr.outH (p / s.settings.hdr.outW)) := rfl

/-- The place on the link at which logical position (x, y) leaves. -/
def linkPlace (s : State) (x y : Nat) : Nat :=
  mirrored s.straps.flipy s.settings.hdr.outH y * s.settings.hdr.outW
    + mirrored s.straps.mirx s.settings.hdr.outW x

section Place

variable {s : State} {x y : Nat} (hx : x < s.settings.hdr.outW) (hy : y < s.settings.hdr.outH)
include hx hy

theorem linkPlace_lt : linkPlace s x y < rasterSize s := by
  have hx' := mirrored_lt s.straps.mirx hx
  have hy' := mirrored_lt s.straps.flipy hy
  calc linkPlace s x y
      < (mirrored s.straps.flipy s.settings.hdr.outH y + 1) * s.settings.hdr.outW := by
        rw [linkPlace, Nat.add_one_mul]; omega
    _ ≤ s.settings.hdr.outH * s.settings.hdr.outW := Nat.mul_le_mul_right _ hy'
    _ = rasterSize s := Nat.mul_comm _ _

theorem logicalPosition_linkPlace : logicalPosition s (linkPlace s x y) = (x, y) := by
  have hx' := mirrored_lt s.straps.mirx hx
  have hmod : linkPlace s x y % s.settings.hdr.outW = mirrored s.straps.mirx s.settings.hdr.outW x := by
    rw [linkPlace, Nat.mul_add_mod', Nat.mod_eq_of_lt hx']
  have hdiv : linkPlace s x y / s.settings.hdr.outW = mirrored s.straps.flipy s.settings.hdr.outH y := by
    rw [linkPlace, Nat.mul_comm, Nat.mul_add_div (by omega), Nat.div_eq_of_lt hx', Nat.add_zero]
  rw [logicalPosition_eq, hmod, hdiv, mirrored_mirrored _ hx, mirrored_mirrored _ hy]

omit hx hy in
/-- A place of the raster is the one at which its logical position leaves. -/
theorem linkPlace_logicalPosition {q : Nat} (hq : q < rasterSize s) :
    linkPlace s (logicalPosition s q).1 (logicalPosition s q).2 = q := by
  have hw : 0 < s.settings.hdr.outW := Nat.pos_of_ne_zero fun h => by simp [rasterSize, h] at hq
  have hdiv : q / s.settings.hdr.outW < s.settings.hdr.outH := Nat.div_lt_of_lt_mul hq
  rw [logicalPosition_eq, linkPlace, mirrored_mirrored _ hdiv, mirrored_mirrored _ (Nat.mod_lt _ hw),
    Nat.div_add_mod']

end Place

/-- Settles O52: the cell, the sample, the lift, the four outcomes and the place on the link. -/
theorem everyPixelCodeIsInRange : Obligations.EveryPixelCodeIsInRange := by
  unfold Obligations.EveryPixelCodeIsInRange
  refine ⟨fun s x y k hk => ?cell, fun s u v c => ⟨linIn_outside c, fun hu hv =>
      ⟨linIn_flat c hu hv, linIn_grid c hu hv, linIn_zonemap c hu hv, fun hp hb => ?noneShown,
        fun b right below px p hp hb hsh hfirst hright hbelow hpx => ?shown⟩⟩,
    fun s k black member hm => ?lift,
    fun s x y => ⟨pixelCode_le x y, fun h n hn => ?service, fun h hf => pixelCode_dark x y h hf,
      fun h hv => pixelCode_void x y h hv, fun h hf hv k hk code hcode => ?lit⟩,
    fun s x y hx hy => ?place⟩
  case cell =>
    subst hk
    refine ⟨rfl, rfl, rfl, ?_, Cell.anyVoid_iff _⟩
    rintro i j rfl rfl
    exact ⟨rfl, rfl, rfl, rfl⟩
  case noneShown => rw [linIn_input c hu hv hp, inputSample_of_none_shown c hb]
  case shown =>
    have hfetch : ∀ col row, col = u / 16 ∨ col = right → row = v / 16 ∨ row = below →
        fetched s b col row c = p col row := fun col row hcol hrow => by
      obtain ⟨hwritten, hdecoded⟩ := hpx col row hcol hrow
      rw [fetched_of_written c hwritten, hdecoded]
      cases c <;> rfl
    rw [linIn_input c hu hv hp,
      inputSample_of_shown c hu hv (shownBuffer_eq_some hb hsh hfirst) hright hbelow,
      hfetch _ _ (.inl rfl) (.inl rfl), hfetch _ _ (.inr rfl) (.inl rfl),
      hfetch _ _ (.inl rfl) (.inr rfl), hfetch _ _ (.inr rfl) (.inr rfl)]
    rfl
  case lift =>
    obtain rfl : member = inBlackLift s := funext fun z => by
      rw [Bool.eq_iff_iff, (hm z).2, inBlackLift_iff]
    obtain rfl : black = neighbourBlack s := funext fun z => (hm z).1
    obtain ⟨⟨-, hle⟩, hmem⟩ :=
      foldl_max_spec (neighbourBlack s) ((List.range 8).filter (inBlackLift s)) 0
    rw [← liftCeiling_eq] at hle hmem
    simp only [List.mem_filter, List.mem_range, and_imp, and_assoc] at hle hmem
    exact ⟨hle, hmem, blackSum_eq s k⟩
  case service => rw [pixelCode_service x y h, servicePixel_eq x y hn]
  case lit =>
    have hcomp : ∀ c, componentCode s x y k c = code c := fun c => by
      obtain ⟨lin, out, e, d, hlin, hout, he, hd, hc⟩ := hcode c
      rw [hc, he, hd, hout, hlin, ← ditherOffset_eq]
      rfl
    rw [pixelCode_lit x y h hf hv, ← hk, hcomp, hcomp, hcomp]
  case place =>
    refine ⟨linkPlace s x y, linkPlace_lt hx hy, logicalPosition_linkPlace hx hy, rfl, fun q hq he => ?_⟩
    rw [← linkPlace_logicalPosition hq, he]

end Sys2Proof.Machine
end

section
/-! PROOFS. What leaves the receive queue alone (R114): all but the dispatch of its head, a complete message
and a reset. -/

namespace Sys2Proof.Machine

variable (s : State)

@[simp] theorem checkZone_rxQueue (n i : Nat) : (checkZone n s i).bus.rxQueue = s.bus.rxQueue := by
  unfold checkZone
  dsimp only
  split
  · split
    · simp
    · split <;> simp
  · rfl

@[simp] theorem shapeAgreement_rxQueue (n : Nat) : (shapeAgreement n s).bus.rxQueue = s.bus.rxQueue := by
  unfold shapeAgreement
  generalize List.range 8 = l
  induction l generalizing s with
  | nil => rfl
  | cons i l ih => rw [List.foldl_cons, ih, checkZone_rxQueue]

@[simp] theorem setCapacity_rxQueue (c : Nat) : (setCapacity c s).bus.rxQueue = s.bus.rxQueue := by
  unfold setCapacity
  split <;> simp

@[simp] theorem offerCapacity_rxQueue (c : Nat) : (offerCapacity c s).bus.rxQueue = s.bus.rxQueue := by
  unfold offerCapacity
  (repeat' split) <;> simp

@[simp] theorem offerLevel_rxQueue (r : LevelRecord) : (offerLevel r s).bus.rxQueue = s.bus.rxQueue := by
  unfold offerLevel
  split <;> simp

@[simp] theorem enterListen_rxQueue : (enterListen s).bus.rxQueue = s.bus.rxQueue := by
  simp [enterListen]

@[simp] theorem enterService_rxQueue : (enterService s).bus.rxQueue = s.bus.rxQueue := rfl

@[simp] theorem enterDark_rxQueue : (enterDark s).bus.rxQueue = s.bus.rxQueue := rfl

@[simp] theorem enterSleep_rxQueue : (enterSleep s).bus.rxQueue = s.bus.rxQueue := rfl

@[simp] theorem enterLit_rxQueue : (enterLit s).bus.rxQueue = s.bus.rxQueue := rfl

@[simp] theorem enterMeasure_rxQueue : (enterMeasure s).bus.rxQueue = s.bus.rxQueue := by
  unfold enterMeasure
  dsimp only
  split <;> simp

@[simp] theorem endLeave_rxQueue : (endLeave s).bus.rxQueue = s.bus.rxQueue := by
  unfold endLeave
  split <;> simp

@[simp] theorem causeAppears_rxQueue (c : Cause) : (causeAppears c s).bus.rxQueue = s.bus.rxQueue := by
  rcases causeAppears_cases s c with ⟨-, h⟩ | ⟨-, -, h⟩ | ⟨-, -, -, h⟩ <;> rw [h] <;> simp

@[simp] theorem setHoldDark_rxQueue : (setHoldDark s).bus.rxQueue = s.bus.rxQueue := by
  simp [setHoldDark]

@[simp] theorem sleepOrdered_rxQueue : (sleepOrdered s).bus.rxQueue = s.bus.rxQueue := by
  unfold sleepOrdered
  split <;> simp

@[simp] theorem lifeAtMark_rxQueue : (lifeAtMark s).bus.rxQueue = s.bus.rxQueue := by
  unfold lifeAtMark
  (repeat' (first | split | (dsimp only; split))) <;> simp

@[simp] theorem endListen_rxQueue : (endListen s).bus.rxQueue = s.bus.rxQueue := by
  unfold endListen
  dsimp only
  split <;> simp

@[simp] theorem holdTest_rxQueue : (holdTest s).bus.rxQueue = s.bus.rxQueue := by
  unfold holdTest
  split <;> simp

@[simp] theorem stepMeasurement_rxQueue : (stepMeasurement s).bus.rxQueue = s.bus.rxQueue := by
  unfold stepMeasurement
  (repeat' split) <;> simp

@[simp] theorem lampTest_rxQueue : (lampTest s).bus.rxQueue = s.bus.rxQueue := by
  unfold lampTest
  (repeat' (first | split | (dsimp only; split))) <;> simp [raiseLampLow]

@[simp] theorem thermalTest_rxQueue : (thermalTest s).bus.rxQueue = s.bus.rxQueue := by
  unfold thermalTest
  (repeat' (first | split | (dsimp only; split))) <;> simp [raiseThermal]

@[simp] theorem breakMessage_rxQueue : (breakMessage s).bus.rxQueue = s.bus.rxQueue := by
  simp [breakMessage, dropAssembly]

@[simp] theorem breakIfAny_rxQueue : (breakIfAny s).bus.rxQueue = s.bus.rxQueue := by
  unfold breakIfAny
  split <;> simp

@[simp] theorem beginMessage_rxQueue (l : Byte) : (beginMessage l s).bus.rxQueue = s.bus.rxQueue := rfl

@[simp] theorem foreignStart_rxQueue (t : Nat) : (foreignStart t s).bus.rxQueue = s.bus.rxQueue := by
  unfold foreignStart
  dsimp only
  split <;> simp

@[simp] theorem noteStart_rxQueue : (noteStart s).bus.rxQueue = s.bus.rxQueue := by
  unfold noteStart
  split <;> simp

@[simp] theorem pushAnswer_rxQueue (a : AnswerRecord) : (pushAnswer a s).bus.rxQueue = s.bus.rxQueue := by
  unfold pushAnswer
  split <;> simp

@[simp] theorem answerOrder_rxQueue (o : Order) (r : OrderResult) (bs : List Byte) :
    (answerOrder o r bs s).bus.rxQueue = s.bus.rxQueue := by
  unfold answerOrder
  split <;> simp

@[simp] theorem answerLeaves_rxQueue : (answerLeaves s).bus.rxQueue = s.bus.rxQueue := by
  unfold answerLeaves
  dsimp only
  split <;> simp

@[simp] theorem enterLead_rxQueue : (enterLead s).bus.rxQueue = s.bus.rxQueue := rfl

@[simp] theorem endGap_rxQueue : (endGap s).bus.rxQueue = s.bus.rxQueue := by
  unfold endGap
  split <;> simp

@[simp] theorem beginLead_rxQueue : (beginLead s).bus.rxQueue = s.bus.rxQueue := by
  unfold beginLead
  (repeat' split) <;> simp [sendNotice, sendAnswer, sendStatus, beginSending, backToIdle]

@[simp] theorem itemBack_rxQueue : (itemBack s).bus.rxQueue = s.bus.rxQueue := by
  unfold itemBack
  (repeat' split) <;> simp

@[simp] theorem stopDriving_rxQueue : (stopDriving s).bus.rxQueue = s.bus.rxQueue := rfl

@[simp] theorem abandon_rxQueue : (abandon s).bus.rxQueue = s.bus.rxQueue := by
  unfold abandon
  dsimp only
  split <;> simp

@[simp] theorem drawBackoff_rxQueue : (drawBackoff s).bus.rxQueue = s.bus.rxQueue := rfl

@[simp] theorem collide_rxQueue : (collide s).bus.rxQueue = s.bus.rxQueue := by
  unfold collide
  dsimp only
  rw [stopDriving_rxQueue]
  split <;> simp

@[simp] theorem messageEnds_rxQueue : (messageEnds s).bus.rxQueue = s.bus.rxQueue := by
  unfold messageEnds
  dsimp only
  split <;> simp

end Sys2Proof.Machine
end

section
/-! PROOFS. The own number's peer entry stays cleared (R87, R97): the invariant, what keeps it, and every
command. -/

namespace Sys2Proof.Machine

/-! ### The own entry's invariant -/

/-- The invariant speaks of the straps, the reset phase, the peer table and the receive queue alone. -/
theorem OwnEntryCleared.of_eq {s u : State} (hs : OwnEntryCleared s) (hstraps : u.straps = s.straps)
    (hphase : u.resetPhase = s.resetPhase) (hpeers : u.peers = s.peers)
    (hqueue : u.bus.rxQueue = s.bus.rxQueue) : OwnEntryCleared u := by
  have hstn : u.stn = s.stn := by rw [State.stn, hstraps, State.stn]
  have hpeer : u.peer s.stn = s.peer s.stn := by
    cases s.stn with
    | zero => rfl
    | succ n => simp only [State.peer, hpeers]
  unfold OwnEntryCleared
  rwa [hstn, hpeer, hphase, hpeers, hqueue]

/-- Every entry of a cleared table is cleared, whatever the number (R87). -/
theorem State.peer_of_clearedPeers {s : State} (h : s.peers = clearedPeers) (n : Nat) :
    s.peer n = .cleared := by
  cases n with
  | zero => rfl
  | succ n =>
    rw [State.peer, h]
    exact getD_replicate_default 31 n _

/-- A cleared table and an empty queue meet the invariant, whatever the straps (R87, R164). -/
theorem ownEntryCleared_of_cleared {s : State} (hpeers : s.peers = clearedPeers)
    (hqueue : s.bus.rxQueue = []) : OwnEntryCleared s := by
  exact ⟨by rw [hpeers]; rfl, State.peer_of_clearedPeers hpeers _, by simp [hqueue], fun _ => hpeers⟩

/-- An operation that keeps the invariant. -/
def KeepsOwnEntry (f : State → State) : Prop := ∀ s, OwnEntryCleared s → OwnEntryCleared (f s)

/-- An operation that touches nothing of which the invariant speaks. -/
def LeavesHearing (f : State → State) : Prop := ∀ s,
  (f s).straps = s.straps ∧ (f s).resetPhase = s.resetPhase ∧ (f s).peers = s.peers
    ∧ (f s).bus.rxQueue = s.bus.rxQueue

theorem LeavesHearing.keeps {f : State → State} (h : LeavesHearing f) : KeepsOwnEntry f := fun s hs => by
  obtain ⟨hstraps, hphase, hpeers, hqueue⟩ := h s
  exact hs.of_eq hstraps hphase hpeers hqueue

theorem KeepsOwnEntry.comp {f g : State → State} (hg : KeepsOwnEntry g) (hf : KeepsOwnEntry f) :
    KeepsOwnEntry fun s => g (f s) := fun s hs => hg _ (hf s hs)

theorem OwnEntryCleared.ite {p : Prop} [Decidable p] {t u : State} (ht : OwnEntryCleared t)
    (hu : OwnEntryCleared u) : OwnEntryCleared (if p then t else u) := by
  split
  · exact ht
  · exact hu

theorem KeepsOwnEntry.ite {p : State → Prop} [∀ s, Decidable (p s)] {f g : State → State}
    (hf : KeepsOwnEntry f) (hg : KeepsOwnEntry g) : KeepsOwnEntry fun s => if p s then f s else g s :=
  fun s hs => .ite (hf s hs) (hg s hs)

theorem keepsOwnEntry_id : KeepsOwnEntry fun s => s := fun _ hs => hs

theorem advanceTo_keepsOwnEntry (t : Nat) : KeepsOwnEntry (advanceTo t) :=
  LeavesHearing.keeps fun s => by simp

theorem refreshTx_keepsOwnEntry : KeepsOwnEntry refreshTx := LeavesHearing.keeps fun s => by simp

/-! ### The peer table's operations -/

/-- The entry of another number than the one set stays. -/
theorem State.setPeer_peer_other {n k : Nat} (h : k ≠ n) (e : PeerEntry) (s : State) :
    (s.setPeer n e).peer k = s.peer k := by
  cases k with
  | zero => rfl
  | succ k =>
    cases n with
    | zero => rfl
    | succ n =>
      simp only [State.peer, State.setPeer, State.setPeers_peers, List.getD_eq_getElem?_getD]
      rw [List.getElem?_set_ne (by omega)]

/-- Setting an entry keeps the table's 31 entries. -/
@[simp] theorem State.setPeer_peers_length (n : Nat) (e : PeerEntry) (s : State) :
    (s.setPeer n e).peers.length = s.peers.length := by
  cases n <;> simp [State.setPeer]

/-- A part that runs may set the entry of any other number than its own. -/
theorem OwnEntryCleared.setPeer {s : State} (hs : OwnEntryCleared s) (hrun : s.resetPhase = .running)
    {n : Nat} (hn : n ≠ s.stn) (e : PeerEntry) : OwnEntryCleared (s.setPeer n e) := by
  obtain ⟨hlen, hown, hqueue, -⟩ := hs
  have hstn : (s.setPeer n e).stn = s.stn := by simp [State.stn]
  refine ⟨by simpa using hlen, ?_, by simpa [hstn] using hqueue, fun h => ?_⟩
  · rw [hstn, State.setPeer_peer_other hn.symm, hown]
  · simp [hrun] at h

theorem entryAged_keepsOwnEntry (n : Nat) : KeepsOwnEntry (entryAged n) :=
  LeavesHearing.keeps fun s => by simp

/-- Only in a part that runs is an entry not ABSENT, and it is not the own one (R87, R97). -/
theorem OwnEntryCleared.of_not_absent {s : State} (hs : OwnEntryCleared s) {n : Nat}
    (h : (s.peer n).state ≠ .absent) : s.resetPhase = .running ∧ n ≠ s.stn := by
  obtain ⟨-, hown, -, hphase⟩ := hs
  refine ⟨Decidable.byContradiction fun hidle => h ?_, fun hn => h ?_⟩
  · rw [State.peer_of_clearedPeers (hphase hidle)]
    rfl
  · rw [hn, hown]
    rfl

/-- Ageing touches no cleared entry: one that becomes LOST was LIVE (R93). -/
theorem losePeer_keepsOwnEntry (n : Nat) : KeepsOwnEntry (losePeer n) := fun s hs => by
  unfold losePeer
  split
  · rename_i hover
    have hlive : (s.peer n).state = .live := by simp_all [PeerEntry.overdue]
    obtain ⟨hrun, hn⟩ := hs.of_not_absent (n := n) (by simp [hlive])
    exact entryAged_keepsOwnEntry n _ (hs.setPeer hrun hn _)
  · exact hs

/-- One that is purged was LOST (R93). -/
theorem purgePeer_keepsOwnEntry (n : Nat) : KeepsOwnEntry (purgePeer n) := fun s hs => by
  unfold purgePeer
  split
  · rename_i hpurge
    have hlost : (s.peer n).state = .lost := by simp_all [PeerEntry.purgeable]
    obtain ⟨hrun, hn⟩ := hs.of_not_absent (n := n) (by simp [hlost])
    exact entryAged_keepsOwnEntry n _ (hs.setPeer hrun hn _)
  · exact hs

@[simp] theorem peersAtMark_peers (s : State) :
    (peersAtMark s).peers = s.peers.map PeerEntry.aged := by
  unfold peersAtMark
  dsimp only
  split <;> simp

/-- At a mark every entry ages by itself; a cleared one does not change (R93). -/
theorem peersAtMark_peer (s : State) (n : Nat) : (peersAtMark s).peer n = (s.peer n).aged := by
  cases n with
  | zero => rfl
  | succ n =>
    simp only [State.peer, List.getD_eq_getElem?_getD, peersAtMark_peers, List.getElem?_map]
    cases s.peers[n]? <;> rfl

theorem peersAtMark_keepsOwnEntry : KeepsOwnEntry peersAtMark := fun s hs => by
  obtain ⟨hlen, hown, hqueue, hphase⟩ := hs
  have hstn : (peersAtMark s).stn = s.stn := by simp [State.stn]
  refine ⟨by simpa using hlen, ?_, by simpa [hstn] using hqueue, fun h => ?_⟩
  · rw [hstn, peersAtMark_peer, hown]
    rfl
  · rw [peersAtMark_peers, hphase (by simpa using h)]
    rfl

theorem clearPeers_keepsOwnEntry : KeepsOwnEntry clearPeers := fun s hs => by
  obtain ⟨-, -, hqueue, -⟩ := hs
  have hstn : (clearPeers s).stn = s.stn := by simp [State.stn]
  exact ⟨by simp [clearedPeers], State.peer_of_clearedPeers (by simp) _, by simpa [hstn] using hqueue,
    fun _ => by simp⟩

/-! ### The receive queue's operations -/

theorem popQueue_keepsOwnEntry : KeepsOwnEntry popQueue := fun s hs => by
  obtain ⟨hlen, hown, hqueue, hphase⟩ := hs
  have hstn : (popQueue s).stn = s.stn := by simp [State.stn]
  have hpeer : (popQueue s).peer s.stn = s.peer s.stn := by cases s.stn <;> simp [State.peer]
  refine ⟨by simpa using hlen, by rw [hstn, hpeer, hown], fun m hm => ?_, by simpa using hphase⟩
  rw [hstn]
  exact hqueue m (List.mem_of_mem_tail (by simpa using hm))

/-- A STATUS of another station is applied to its own entry alone (R90, R97). -/
theorem applyStatus_ownEntryCleared {s : State} (hs : OwnEntryCleared s) (hrun : s.resetPhase = .running)
    {n : Nat} (hn : n ≠ s.stn) (b : StatusBody) (straddle : Bool) :
    OwnEntryCleared (applyStatus n b straddle s) := by
  exact (hs.setPeer hrun hn ((s.peer n).withStatus b)).of_eq (by simp [applyStatus])
    (by simp [applyStatus]) (by simp [applyStatus]) (by simp [applyStatus])

/-- A JOIN or LEAVE of another station is applied to its own entry alone (R91, R97). -/
theorem applyNotice_ownEntryCleared {s : State} (hs : OwnEntryCleared s) (hrun : s.resetPhase = .running)
    {n : Nat} (hn : n ≠ s.stn) (kind : HandoverKind) (b : NoticeBody) (straddle : Bool) :
    OwnEntryCleared (applyNotice n kind b straddle s) := by
  exact (hs.setPeer hrun hn ((s.peer n).withNotice kind b)).of_eq (by simp [applyNotice])
    (by simp [applyNotice]) (by simp [applyNotice]) (by simp [applyNotice])

/-- A peer's message at the head of the queue was not sent by this station (R97). -/
theorem OwnEntryCleared.head_sender {s : State} (hs : OwnEntryCleared s) {m : Message}
    {rest : List Message} (hq : s.bus.rxQueue = m :: rest) (hk : m.kind ≠ .order) :
    m.sender ≠ (popQueue s).stn := by
  obtain ⟨-, -, hqueue, -⟩ := hs
  exact hqueue m (by simp [hq]) hk

theorem count_keepsOwnEntry (c : Counter) : KeepsOwnEntry (State.count · c) :=
  LeavesHearing.keeps fun s => by simp

theorem dispatchStatus_ownEntryCleared {s : State} (hs : OwnEntryCleared s)
    (hrun : s.resetPhase = .running) : OwnEntryCleared (dispatchStatus s) := by
  unfold dispatchStatus
  have hpop := popQueue_keepsOwnEntry s hs
  split
  · rename_i m rest hq
    split
    · rename_i hk
      dsimp only
      split
      · exact hpop
      · split
        · exact applyStatus_ownEntryCleared hpop (by simpa using hrun) (hs.head_sender hq (by simp [hk])) _ _
        · exact count_keepsOwnEntry _ _ hpop
    · exact hs
  · exact hs

theorem dispatchNotice_ownEntryCleared {s : State} (hs : OwnEntryCleared s)
    (hrun : s.resetPhase = .running) {mk : MsgKind} (hmk : mk ≠ .order) (kind : HandoverKind) :
    OwnEntryCleared (dispatchNotice mk kind s) := by
  unfold dispatchNotice
  have hpop := popQueue_keepsOwnEntry s hs
  split
  · rename_i m rest hq
    split
    · rename_i hk
      dsimp only
      split
      · exact hpop
      · split
        · exact applyNotice_ownEntryCleared hpop (by simpa using hrun) (hs.head_sender hq (hk ▸ hmk)) _ _ _
        · exact count_keepsOwnEntry _ _ hpop
    · exact hs
  · exact hs

/-- A message that joins the queue keeps the invariant unless it is a peer's of the own number (R97). -/
theorem OwnEntryCleared.enqueue {s : State} (hs : OwnEntryCleared s) {m : Message}
    (hm : m.kind ≠ .order → m.sender ≠ s.stn) :
    OwnEntryCleared (s.setBus { s.bus with rxQueue := s.bus.rxQueue ++ [m] }) := by
  obtain ⟨hlen, hown, hqueue, hphase⟩ := hs
  refine ⟨hlen, hown, fun k hk => ?_, hphase⟩
  rcases List.mem_append.1 hk with hk | hk
  · exact hqueue k hk
  · obtain rfl := List.mem_singleton.1 hk
    exact hm

/-- No peer's message of the own number reaches the queue: number 0 does not go with its kind, and any other
is a duplicate (R97, R112). -/
theorem keepMessage_keepsOwnEntry (m : Message) : KeepsOwnEntry (keepMessage m) := fun s hs => by
  unfold keepMessage
  split
  · exact count_keepsOwnEntry _ _ hs
  split
  · exact hs.of_eq (by simp) (by simp) (by simp) (by simp)
  split
  · exact hs
  split
  · exact hs
  split
  · exact hs.of_eq (by simp) (by simp) (by simp) (by simp)
  · rename_i hallowed hother _ _ _
    refine hs.enqueue fun hk hown => ?_
    have hzero : m.sender ≠ 0 := by
      cases h : m.kind <;> simp_all [senderAllowed]
    simp [← hown, hzero] at hother

theorem dropAssembly_keepsOwnEntry : KeepsOwnEntry dropAssembly := LeavesHearing.keeps fun s => by
  simp [dropAssembly]

theorem completeMessage_keepsOwnEntry (a : Assembly) (check : Byte) :
    KeepsOwnEntry (completeMessage a check) := fun s hs => by
  unfold completeMessage
  have hdrop := dropAssembly_keepsOwnEntry s hs
  dsimp only
  split
  · exact count_keepsOwnEntry _ _ hdrop
  · split
    · exact count_keepsOwnEntry _ _ hdrop
    · exact keepMessage_keepsOwnEntry _ _ hdrop

theorem breakMessage_keepsOwnEntry : KeepsOwnEntry breakMessage := LeavesHearing.keeps fun s => by simp

theorem extendMessage_keepsOwnEntry (a : Assembly) (d : Byte) : KeepsOwnEntry (extendMessage a d) :=
  fun s hs => by
    unfold extendMessage
    split
    · split
      · exact breakMessage_keepsOwnEntry s hs
      · exact hs.of_eq rfl rfl rfl rfl
    · split
      · exact hs.of_eq rfl rfl rfl rfl
      · exact completeMessage_keepsOwnEntry a d s hs

theorem assemble_keepsOwnEntry (ch : Character) : KeepsOwnEntry (assemble ch) := fun s hs => by
  unfold assemble
  split
  · exact hs.of_eq (by simp) (by simp) (by simp) (by simp)
  split
  · exact hs.of_eq (by simp) (by simp) (by simp) (by simp)
  split
  · exact hs
  · exact extendMessage_keepsOwnEntry _ _ s hs

theorem hear_keepsOwnEntry (ch : Character) : KeepsOwnEntry (hear ch) :=
  .ite keepsOwnEntry_id (assemble_keepsOwnEntry ch)

theorem noteStart_keepsOwnEntry : KeepsOwnEntry noteStart := LeavesHearing.keeps fun s => by simp

theorem receive_keepsOwnEntry (bits : CharacterBits) : KeepsOwnEntry (receive bits) := fun s hs => by
  unfold receive
  split
  · exact hs
  · exact hs
  all_goals exact hear_keepsOwnEntry _ _ (noteStart_keepsOwnEntry s hs)

/-! ### Resets (R164) -/

theorem holdReset_ownEntryCleared (cause : ResetCause) (s : State) : OwnEntryCleared (holdReset cause s) :=
  ownEntryCleared_of_cleared rfl rfl

theorem restartReset_ownEntryCleared (s : State) : OwnEntryCleared (restartReset s) :=
  ownEntryCleared_of_cleared rfl rfl

/-- The straps are sampled while the table is cleared and the queue empty, so the own number may change. -/
theorem releaseReset_ownEntryCleared {s : State} (hs : OwnEntryCleared s) (hidle : s.resetPhase ≠ .running)
    (straps : Straps) : OwnEntryCleared (releaseReset straps s) := by
  obtain ⟨-, -, -, hphase⟩ := hs
  exact ownEntryCleared_of_cleared (hphase hidle) rfl

/-! ### Steps due and how a command runs -/

theorem perform_keepsOwnEntry (d : DueStep) : KeepsOwnEntry (perform d) := by
  cases d with
  | listenPeriodEnd => exact .ite (LeavesHearing.keeps fun _ => by simp) keepsOwnEntry_id
  | rejoin => exact .ite (LeavesHearing.keeps fun _ => by simp) keepsOwnEntry_id
  | peerLost n => exact losePeer_keepsOwnEntry n
  | peerPurge n => exact purgePeer_keepsOwnEntry n
  | announcement => exact LeavesHearing.keeps fun _ => by simp [perform]
  | holdLimit => exact LeavesHearing.keeps fun _ => by simp [perform]

theorem takeDue_keepsOwnEntry (d : DueStep) : KeepsOwnEntry (takeDue d) :=
  .ite (fun _ hs => refreshTx_keepsOwnEntry _ (perform_keepsOwnEntry d _ (hs.of_eq rfl rfl rfl rfl)))
    keepsOwnEntry_id

theorem settle_keepsOwnEntry : KeepsOwnEntry settle := fun s hs => by
  have htaken : ∀ (l : List DueStep) (t : State), OwnEntryCleared t →
      OwnEntryCleared (l.foldl (fun t d => takeDue d t) t) := fun l => by
    induction l with
    | nil => exact fun _ ht => ht
    | cons d l ih => exact fun t ht => ih _ (takeDue_keepsOwnEntry d t ht)
  unfold settle
  dsimp only
  split
  · exact restartReset_ownEntryCleared _
  · exact htaken _ s hs

theorem whenRunning_keepsOwnEntry {f : State → State}
    (hf : ∀ s, OwnEntryCleared s → s.resetPhase = .running → OwnEntryCleared (f s)) :
    KeepsOwnEntry (whenRunning f) := fun s hs => by
  unfold whenRunning
  split
  · rename_i hrun
    exact refreshTx_keepsOwnEntry _ (hf _ (settle_keepsOwnEntry s hs) (settle_calm hrun).1)
  · exact hs

theorem KeepsOwnEntry.whenRunning {f : State → State} (hf : KeepsOwnEntry f) :
    KeepsOwnEntry (whenRunning f) := whenRunning_keepsOwnEntry fun s hs _ => hf s hs

theorem KeepsOwnEntry.atTime {f : State → State} (hf : KeepsOwnEntry f) (t : Nat) :
    KeepsOwnEntry (atTime t f) := (hf.comp (advanceTo_keepsOwnEntry t)).whenRunning

theorem KeepsOwnEntry.atDeadline {f : State → State} (hf : KeepsOwnEntry f)
    (deadline : State → Option Nat) : KeepsOwnEntry (atDeadline deadline f) :=
  KeepsOwnEntry.whenRunning fun s hs => by
    split
    · exact hf _ (advanceTo_keepsOwnEntry _ s hs)
    · exact hs

theorem KeepsOwnEntry.linkEvent {f : State → State} (hf : KeepsOwnEntry f) (t : Nat) :
    KeepsOwnEntry (linkEvent t f) := (hf.ite keepsOwnEntry_id).atTime t

theorem KeepsOwnEntry.lineEdge {f : State → State} (hf : KeepsOwnEntry f) (t : Nat) (low : Bool) :
    KeepsOwnEntry (lineEdge t low f) :=
  .ite (KeepsOwnEntry.atTime (hf.comp (g := f) (f := (State.setLine · low))
      fun _ hs => hs.of_eq rfl rfl rfl rfl) t) fun _ hs => hs.of_eq rfl rfl rfl rfl

/-! ### The frame mark, the load, the scan -/

theorem frameMark_keepsOwnEntry : KeepsOwnEntry frameMark := fun s hs => by
  have hbefore : LeavesHearing fun s => levelAtMark (lifeAtMark (zonesAtMark (inputAtMark
      (presenterChoice (cutRaster (timerAtMark s)))))) := fun s => by simp
  have hafter : LeavesHearing fun s => beginRaster (straddleAtMark s) := fun s => by simp
  have hmark := hafter.keeps _ (peersAtMark_keepsOwnEntry _ (hbefore.keeps s hs))
  exact hmark.of_eq rfl rfl rfl rfl

theorem takeFall_keepsOwnEntry : KeepsOwnEntry takeFall := fun s hs => by
  unfold takeFall
  split
  · exact hs.of_eq rfl rfl rfl rfl
  · dsimp only
    split
    · exact frameMark_keepsOwnEntry _ (hs.of_eq rfl rfl rfl rfl)
    · exact hs.of_eq rfl rfl rfl rfl

theorem takeExpiry_keepsOwnEntry : KeepsOwnEntry takeExpiry := fun s hs => by
  unfold takeExpiry
  dsimp only
  split
  · exact frameMark_keepsOwnEntry _ (hs.of_eq rfl rfl rfl rfl)
  · split <;> exact hs.of_eq rfl rfl rfl rfl

theorem checkSection_leavesHearing : LeavesHearing checkSection := fun s => by
  unfold checkSection
  split
  · dsimp only
    (repeat' split) <;> simp
  · simp

theorem finishLoad_leavesHearing : LeavesHearing finishLoad := fun s => by
  unfold finishLoad
  dsimp only
  (repeat' split) <;> simp

theorem completeScan_leavesHearing : LeavesHearing completeScan := fun s => by
  unfold completeScan
  split <;> simp

theorem finishScan_keepsOwnEntry (codes : List (BitVec 12)) : KeepsOwnEntry (finishScan codes) :=
  fun s hs => by
    unfold finishScan
    split
    · exact completeScan_leavesHearing.keeps _ (advanceTo_keepsOwnEntry _ _ (hs.of_eq rfl rfl rfl rfl))
    · exact hs

/-! ### Orders (R177 to R183) -/

theorem withOrder_keepsOwnEntry {accepts : Order → Bool} {carry : Message → Order → State → State}
    (hcarry : ∀ m o, KeepsOwnEntry (carry m o)) : KeepsOwnEntry (withOrder accepts carry) := fun s hs => by
  have hpop := popQueue_keepsOwnEntry s hs
  unfold withOrder
  split
  · exact hs
  · split
    · split
      · exact hs
      · exact .ite (.ite (hcarry _ _ _ hpop) hpop) hs
    · exact hs

theorem answerOrder_keepsOwnEntry (o : Order) (r : OrderResult) (bs : List Byte) :
    KeepsOwnEntry (answerOrder o r bs) := LeavesHearing.keeps fun _ => by simp

/-- An order whose act keeps the invariant. -/
def ActKeepsOwnEntry (act : Order → State → Settled) : Prop :=
  ∀ o s, OwnEntryCleared s → OwnEntryCleared (act o s).after

/-- What an order's act keeps is kept as it is settled and answered. -/
theorem settleOrder_keepsOwnEntry {act : Order → State → Settled}
    (hact : ActKeepsOwnEntry act) (m : Message) (o : Order) :
    KeepsOwnEntry (settleOrder act m o) := fun s hs => by
  unfold settleOrder
  refine answerOrder_keepsOwnEntry _ _ _ _ ?_
  split
  · exact hact o s hs
  · exact hs

theorem actRead_keepsOwnEntry (bytes : State → List Byte) : ActKeepsOwnEntry (actRead bytes) :=
  fun o s hs => by
    unfold actRead
    split <;> exact hs

theorem actReadPeer_keepsOwnEntry : ActKeepsOwnEntry actReadPeer := fun o s hs => by
  unfold actReadPeer
  dsimp only
  split <;> exact hs

theorem actReadZone_keepsOwnEntry : ActKeepsOwnEntry actReadZone := fun o s hs => by
  unfold actReadZone
  dsimp only
  split <;> exact hs

theorem actLevel_keepsOwnEntry : ActKeepsOwnEntry actLevel := fun o s hs => by
  unfold actLevel
  split <;> exact hs.of_eq rfl rfl rfl rfl

theorem actDark_keepsOwnEntry : ActKeepsOwnEntry actDark := fun _ s hs =>
  hs.of_eq (u := setHoldDark s) (by simp) (by simp) (by simp) (by simp)

theorem actLight_keepsOwnEntry : ActKeepsOwnEntry actLight := fun o s hs => by
  unfold actLight
  split <;> exact hs.of_eq rfl rfl rfl rfl

theorem actPattern_keepsOwnEntry : ActKeepsOwnEntry actPattern := fun o s hs => by
  by_cases hcode : byteAt o.args 0 ≤ 3
  · rw [actPattern_of_source hcode]
    exact hs.of_eq rfl rfl rfl rfl
  · rw [actPattern, if_pos (by omega)]
    exact hs

theorem actClear_keepsOwnEntry : ActKeepsOwnEntry actClear :=
  fun _ _ hs => hs.of_eq rfl rfl rfl rfl

theorem actStore_keepsOwnEntry : ActKeepsOwnEntry actStore := fun o s hs => by
  unfold actStore
  split <;> exact hs.of_eq rfl rfl rfl rfl

theorem actSleep_keepsOwnEntry : ActKeepsOwnEntry actSleep := fun o s hs => by
  have hsleep : OwnEntryCleared (sleepOrdered s) := hs.of_eq (by simp) (by simp) (by simp) (by simp)
  unfold actSleep
  split
  case h_5 | h_6 | h_7 | h_8 | h_9 => exact hs
  all_goals exact hsleep

/-- WAKE clears the whole table (R96). -/
theorem actWake_keepsOwnEntry : ActKeepsOwnEntry actWake := fun o s hs => by
  have hlisten : LeavesHearing fun s => startScan (enterListen s) := fun s => by simp [startScan]
  unfold actWake
  split
  · exact hlisten.keeps _ (clearPeers_keepsOwnEntry s hs)
  · exact hs

theorem carryRestart_keepsOwnEntry (m : Message) (o : Order) : KeepsOwnEntry (carryRestart m o) :=
  LeavesHearing.keeps fun s => by
    unfold carryRestart
    split <;> simp

theorem dropShortOrder_keepsOwnEntry : KeepsOwnEntry dropShortOrder := fun s hs => by
  unfold dropShortOrder
  split
  · exact hs
  split
  · exact count_keepsOwnEntry _ _ (popQueue_keepsOwnEntry s hs)
  · exact hs

/-- An order command whose act keeps the invariant keeps it. -/
theorem order_keepsOwnEntry {accepts : Order → Bool} {act : Order → State → Settled}
    (hact : ActKeepsOwnEntry act) :
    KeepsOwnEntry (whenRunning (withOrder accepts (settleOrder act))) :=
  (withOrder_keepsOwnEntry (settleOrder_keepsOwnEntry hact)).whenRunning

/-! ### Every command -/

theorem OwnEntryCleared.of_next {t u : State}
    (h : (Host.Outcome.next t : Host.Outcome State Fault Refusal) = .next u) (ht : OwnEntryCleared t) :
    OwnEntryCleared u := Host.Outcome.next.inj h ▸ ht

theorem resetRelease_ownEntryCleared (t : Nat) (straps : Straps) : KeepsOwnEntry fun s =>
    if s.resetPhase = .held then releaseReset straps (advanceTo t s) else s := fun s hs => by
  dsimp only
  split
  · rename_i hheld
    exact releaseReset_ownEntryCleared (advanceTo_keepsOwnEntry t s hs) (by simp [hheld]) straps
  · exact hs

/-- Every command keeps the own number's entry cleared and its messages out of the queue. -/
theorem exec_keepsOwnEntry (c : Instr) {s u : State} (h : exec c s = .next u)
    (hs : OwnEntryCleared s) : OwnEntryCleared u := by
  cases c with
  | powerOn t => exact .of_next h (holdReset_ownEntryCleared _ _)
  | pinReset t => exact .of_next h (.ite hs (holdReset_ownEntryCleared _ _))
  | resetRelease t straps => exact .of_next h (resetRelease_ownEntryCleared t straps s hs)
  | eepromAcknowledge t =>
    exact .of_next h (KeepsOwnEntry.atTime
      (.ite (LeavesHearing.keeps fun _ => by simp) keepsOwnEntry_id) t s hs)
  | eepromReadyTimeout =>
    exact .of_next h (KeepsOwnEntry.atDeadline (LeavesHearing.keeps fun _ => by simp) _ s hs)
  | headerCheck t =>
    exact .of_next h (KeepsOwnEntry.atTime
      (.ite (LeavesHearing.keeps fun _ => by simp) keepsOwnEntry_id) t s hs)
  | sectionCheck t => exact .of_next h (checkSection_leavesHearing.keeps.atTime t s hs)
  | loadFinished t =>
    exact .of_next h (KeepsOwnEntry.atTime (.ite finishLoad_leavesHearing.keeps keepsOwnEntry_id) t s hs)
  | frameLineFall t =>
    exact .of_next h (KeepsOwnEntry.lineEdge (.ite keepsOwnEntry_id takeFall_keepsOwnEntry) t _ s hs)
  | frameLineRise t =>
    exact .of_next h (KeepsOwnEntry.lineEdge
      (.ite keepsOwnEntry_id (LeavesHearing.keeps fun _ => by simp)) t _ s hs)
  | frameTimerExpiry => exact .of_next h (takeExpiry_keepsOwnEntry.atDeadline _ s hs)
  | assertionEnd =>
    exact .of_next h (KeepsOwnEntry.atDeadline (LeavesHearing.keeps fun _ => by simp) _ s hs)
  | lineStuck =>
    exact .of_next h (KeepsOwnEntry.atDeadline (LeavesHearing.keeps fun _ => by simp) _ s hs)
  | lineRecovery =>
    exact .of_next h (KeepsOwnEntry.atDeadline (LeavesHearing.keeps fun _ => by simp) _ s hs)
  | pacePulseEnd =>
    exact .of_next h (KeepsOwnEntry.atDeadline (LeavesHearing.keeps fun _ => by simp) _ s hs)
  | rasterDone => exact .of_next h (keepsOwnEntry_id.atDeadline _ s hs)
  | listenPeriodEnd => exact .of_next h (takeDue_keepsOwnEntry .listenPeriodEnd s hs)
  | rejoin => exact .of_next h (takeDue_keepsOwnEntry .rejoin s hs)
  | peerLost n => exact .of_next h (takeDue_keepsOwnEntry (.peerLost n) s hs)
  | peerPurge n => exact .of_next h (takeDue_keepsOwnEntry (.peerPurge n) s hs)
  | announcementDue => exact .of_next h (takeDue_keepsOwnEntry .announcement s hs)
  | holdLimitPassed => exact .of_next h (takeDue_keepsOwnEntry .holdLimit s hs)
  | inputLossTimeout =>
    exact .of_next h (KeepsOwnEntry.atDeadline (LeavesHearing.keeps fun _ => by simp) _ s hs)
  | frameStart t =>
    exact .of_next h (KeepsOwnEntry.linkEvent (LeavesHearing.keeps fun _ => by simp) t s hs)
  | line t pixels =>
    exact .of_next h (KeepsOwnEntry.linkEvent (LeavesHearing.keeps fun _ => by simp) t s hs)
  | frameEnd t =>
    exact .of_next h (KeepsOwnEntry.linkEvent (LeavesHearing.keeps fun _ => by simp) t s hs)
  | scanComplete codes => exact .of_next h ((finishScan_keepsOwnEntry codes).whenRunning s hs)
  | characterReceived t bits => exact .of_next h ((receive_keepsOwnEntry bits).atTime t s hs)
  | assemblerTimeout => exact .of_next h (breakMessage_keepsOwnEntry.atDeadline _ s hs)
  | statusApplied =>
    exact .of_next h (whenRunning_keepsOwnEntry (fun _ => dispatchStatus_ownEntryCleared) s hs)
  | joinApplied => exact .of_next h (whenRunning_keepsOwnEntry
      (fun _ hs hrun => dispatchNotice_ownEntryCleared hs hrun (by decide) _) s hs)
  | leaveApplied => exact .of_next h (whenRunning_keepsOwnEntry
      (fun _ hs hrun => dispatchNotice_ownEntryCleared hs hrun (by decide) _) s hs)
  | orderTooShort => exact .of_next h (dropShortOrder_keepsOwnEntry.whenRunning s hs)
  | orderUnknown =>
    exact .of_next h ((withOrder_keepsOwnEntry fun _ o => answerOrder_keepsOwnEntry o _ _).whenRunning s hs)
  | level => exact .of_next h (order_keepsOwnEntry actLevel_keepsOwnEntry s hs)
  | dark => exact .of_next h (order_keepsOwnEntry actDark_keepsOwnEntry s hs)
  | light => exact .of_next h (order_keepsOwnEntry actLight_keepsOwnEntry s hs)
  | pattern => exact .of_next h (order_keepsOwnEntry actPattern_keepsOwnEntry s hs)
  | readStartRecord => exact .of_next h (order_keepsOwnEntry (actRead_keepsOwnEntry _) s hs)
  | readCounters => exact .of_next h (order_keepsOwnEntry (actRead_keepsOwnEntry _) s hs)
  | readPeerEntry => exact .of_next h (order_keepsOwnEntry actReadPeer_keepsOwnEntry s hs)
  | readZone => exact .of_next h (order_keepsOwnEntry actReadZone_keepsOwnEntry s hs)
  | readFaultRecord => exact .of_next h (order_keepsOwnEntry (actRead_keepsOwnEntry _) s hs)
  | readPhotometer => exact .of_next h (order_keepsOwnEntry (actRead_keepsOwnEntry _) s hs)
  | readLevels => exact .of_next h (order_keepsOwnEntry (actRead_keepsOwnEntry _) s hs)
  | clear => exact .of_next h (order_keepsOwnEntry actClear_keepsOwnEntry s hs)
  | store => exact .of_next h (order_keepsOwnEntry actStore_keepsOwnEntry s hs)
  | restart =>
    exact .of_next h ((withOrder_keepsOwnEntry carryRestart_keepsOwnEntry).whenRunning s hs)
  | restartReset => exact .of_next h (.ite (settle_keepsOwnEntry s hs) hs)
  | sleep => exact .of_next h (order_keepsOwnEntry actSleep_keepsOwnEntry s hs)
  | wake => exact .of_next h (order_keepsOwnEntry actWake_keepsOwnEntry s hs)
  | storeTransferEnd t =>
    exact .of_next h (KeepsOwnEntry.atTime (LeavesHearing.keeps fun _ => by simp) t s hs)
  | storeFlagClear =>
    exact .of_next h (KeepsOwnEntry.atDeadline (LeavesHearing.keeps fun _ => by simp) _ s hs)
  | gapElapsed =>
    exact .of_next h (KeepsOwnEntry.atDeadline (LeavesHearing.keeps fun _ => by simp) _ s hs)
  | backoffElapsed =>
    exact .of_next h (KeepsOwnEntry.atDeadline (LeavesHearing.keeps fun _ => by simp) _ s hs)
  | leadStart =>
    exact .of_next h (KeepsOwnEntry.atDeadline (LeavesHearing.keeps fun _ => by simp) _ s hs)
  | collision t =>
    exact .of_next h (KeepsOwnEntry.atTime
      (.ite (LeavesHearing.keeps fun _ => by simp) keepsOwnEntry_id) t s hs)
  | messageSent =>
    exact .of_next h (KeepsOwnEntry.atDeadline (LeavesHearing.keeps fun _ => by simp) _ s hs)
  | startBit t =>
    exact .of_next h (KeepsOwnEntry.atTime (LeavesHearing.keeps fun _ => by simp) t s hs)
  | powerLost t => exact .of_next h (.ite hs (ownEntryCleared_of_cleared rfl rfl))

/-- Settles O57: by the command at the front of the queue. -/
theorem everyStepKeepsOwnEntryCleared : Obligations.EveryStepKeepsOwnEntryCleared := by
  unfold Obligations.EveryStepKeepsOwnEntryCleared
  intro s u h hs
  unfold step at h
  split at h
  · exact .of_next h hs
  · exact exec_keepsOwnEntry _ h (hs.of_eq rfl rfl rfl rfl)

end Sys2Proof.Machine
end

section
/-! PROOFS. The tests that settle a complete message (R97, R112). -/

namespace Sys2Proof.Machine

/-! ### From the character to the complete message -/

/-- The data bits, behind the start bit (R104). -/
theorem Character.extractLsb'_bits (ch : Character) : ch.bits.extractLsb' 1 8 = ch.data := by
  ext i hi
  simp only [Character.bits, BitVec.getElem_extractLsb', BitVec.getLsbD_append]
  have hpast : ¬ 1 + i < 1 := by omega
  simp [hpast, hi]

/-- The receiver reads a character back from its eleven bits (R104). -/
theorem readCharacter_bits (ch : Character) : readCharacter ch.bits = some ch := by
  have hstart : ch.bits.getLsbD 0 = false := by
    simp only [Character.bits, BitVec.getLsbD_append]
    simp
  have hmark : ch.bits.getLsbD 9 = ch.mark := by
    simp only [Character.bits, BitVec.getLsbD_append]
    simp
  have hstop : ch.bits.getLsbD 10 = ch.stop := by
    simp only [Character.bits, BitVec.getLsbD_append]
    simp
  rw [readCharacter, hstart, hmark, hstop, ch.extractLsb'_bits]
  rfl
/-- What a station that does not send makes of a character that the assembler is not deaf to. -/
theorem exec_characterReceived {s : State} (h : s.calm) (hst : s.bus.txState ≠ .sending) (t : Nat)
    (ch : Character) (hdeaf : (noteStart (advanceTo t s)).bus.deaf = false) :
    exec (.characterReceived t ch.bits) s
      = .next (refreshTx (assemble ch (noteStart (advanceTo t s)))) := by
  have hrun : exec (.characterReceived t ch.bits) s
      = .next (refreshTx (receive ch.bits (advanceTo t s))) := congrArg _ (atTime_of_calm h t _)
  have hbus : (advanceTo t s).bus = s.bus := by simp
  have hhear : receive ch.bits (advanceTo t s) = hear ch (noteStart (advanceTo t s)) := by
    unfold receive
    rw [readCharacter_bits, hbus]
    split <;> simp_all
  rw [hrun, hhear, hear, hdeaf]
  rfl

/-- The character after the last payload character completes the message (R110). -/
theorem assemble_check {s : State} {a : Assembly} {n : Nat} {ch : Character} (ha : s.bus.assembly = some a)
    (hlen : a.length = some n) (hfull : n ≤ a.payload.length) (hstop : ch.stop = true)
    (hmark : ch.mark = false) : assemble ch s = completeMessage a ch.data s := by
  simp [assemble, extendMessage, ha, hlen, hstop, hmark, Nat.not_lt.2 hfull]

/-! ### The kinds -/

/-- A kind's code names it (R105). -/
theorem msgKindOf_eq_some_iff {n : Nat} {k : MsgKind} : msgKindOf n = some k ↔ n = k.code := by
  unfold msgKindOf
  split <;> cases k <;> simp_all [MsgKind.code]

theorem msgKindOf_eq_none_iff {n : Nat} : msgKindOf n = none ↔ 5 ≤ n := by
  unfold msgKindOf
  split <;> simp_all
  omega

/-- The sender goes with the kind exactly when an ORDER, and only that, comes from 0 (R112, step 2). -/
theorem senderAllowed_eq_false_iff (k : MsgKind) (sender : Nat) : senderAllowed k sender = false
    ↔ 5 ≤ k.code ∨ k.code ≠ 3 ∧ sender = 0 ∨ k.code = 3 ∧ sender ≠ 0 := by
  cases k <;> simp [senderAllowed, MsgKind.code]

theorem MsgKind.code_eq_three_iff (k : MsgKind) : k.code = 3 ↔ k = .order := by
  cases k <;> simp [MsgKind.code]

theorem MsgKind.code_eq_four_iff (k : MsgKind) : k.code = 4 ↔ k = .answer := by
  cases k <;> simp [MsgKind.code]

/-- A kind but ANSWER, read back from its code. -/
theorem MsgKind.eq_of_code {k : MsgKind} (h : k ≠ .answer) :
    (if k.code = 0 then .status else if k.code = 1 then .join else if k.code = 2 then .leave else .order)
      = k := by
  cases k <;> simp_all [MsgKind.code]

/-- Steps 2 to 7 of R112, by the code of the message's kind. -/
theorem keepMessage_eq {s : State} {m : Message} : keepMessage m s =
    if 5 ≤ m.kind.code ∨ m.kind.code ≠ 3 ∧ m.sender = 0 ∨ m.kind.code = 3 ∧ m.sender ≠ 0 then
      { s with faults := { s.faults with counters := { s.faults.counters with
          discard := min 65535 (s.faults.counters.discard + 1) } } }
    else if s.stn ≠ 0 ∧ m.sender = s.stn then
      { s with faults := s.faults.report {
          kind := .duplicateStation, frame := s.timer.number, state := s.life.state,
          detail := m.kind.code } }
    else if s.life.state = .sleep ∧ m.kind.code ≠ 3 then s
    else if m.kind.code = 4 then s
    else if 8 ≤ s.bus.rxQueue.length then
      { s with faults := {
          s.faults.report {
            kind := .rxOverflow, frame := s.timer.number, state := s.life.state,
            detail := m.kind.code } with
          counters := { s.faults.counters with
            overflow := min 65535 (s.faults.counters.overflow + 1) } } }
    else { s with bus := { s.bus with rxQueue := s.bus.rxQueue ++ [{ m with
        kind := if m.kind.code = 0 then .status else if m.kind.code = 1 then .join
          else if m.kind.code = 2 then .leave else .order }] } } := by
  unfold keepMessage queueRoom
  by_cases hallowed : senderAllowed m.kind m.sender = false
  · rw [if_pos (by simp [hallowed]), if_pos ((senderAllowed_eq_false_iff _ _).1 hallowed)]
    rfl
  rw [if_neg (by simpa using hallowed), if_neg (mt (senderAllowed_eq_false_iff _ _).2 hallowed)]
  by_cases hown : s.stn ≠ 0 ∧ m.sender = s.stn
  · rw [if_pos (by simpa using hown), if_pos hown]
    rfl
  rw [if_neg (by simpa using hown), if_neg hown]
  by_cases hsleep : s.life.state = .sleep ∧ m.kind.code ≠ 3
  · rw [if_pos (by simpa [m.kind.code_eq_three_iff] using hsleep), if_pos hsleep]
  rw [if_neg (by simpa [m.kind.code_eq_three_iff] using hsleep), if_neg hsleep]
  by_cases hanswer : m.kind.code = 4
  · rw [if_pos (by simpa [m.kind.code_eq_four_iff] using hanswer), if_pos hanswer]
  rw [if_neg (by simpa [m.kind.code_eq_four_iff] using hanswer), if_neg hanswer,
    MsgKind.eq_of_code (mt m.kind.code_eq_four_iff.2 hanswer)]
  by_cases hfull : 8 ≤ s.bus.rxQueue.length
  · rw [if_pos hfull, if_pos hfull, State.count, State.report_faults,
      FaultUnit.report_counters]
    rfl
  · rw [if_neg hfull, if_neg hfull]
    rfl

/-- Settles O34: the character completes the message, and the tests of R112 are gone through in order. -/
theorem completeMessageIsTested : Obligations.CompleteMessageIsTested := by
  unfold Obligations.CompleteMessageIsTested
  rintro t ch s v a n kind sender hcalm hst hstop hmark rfl hdeaf ha hlen hfull rfl rfl
  have hframe : ∀ u : State, noteStart (advanceTo t s) = u → u.faults = s.faults ∧ u.timer = s.timer
      ∧ u.life = s.life ∧ u.stn = s.stn ∧ u.bus.rxQueue = s.bus.rxQueue := by
    rintro u rfl
    simp [State.stn]
  rw [exec_characterReceived hcalm hst t ch hdeaf, assemble_check ha hlen hfull hstop hmark]
  generalize noteStart (advanceTo t s) = v at *
  obtain ⟨hfaults, htimer, hlife, hstn, hqueue⟩ := hframe v rfl
  rw [← hfaults, ← htimer, ← hlife, ← hstn, ← hqueue]
  refine congrArg (fun u => Host.Outcome.next (refreshTx u)) ?_
  dsimp only
  unfold completeMessage
  simp only [hlen, Option.getD_some]
  by_cases hcrc : crc8 (a.lead :: BitVec.ofNat 8 n :: a.payload) ≠ ch.data
  · rw [if_pos hcrc, if_pos hcrc]
    rfl
  rw [if_neg hcrc, if_neg hcrc]
  cases hkind : msgKindOf (a.lead.toNat / 32) with
  | none =>
    rw [if_pos (.inl (msgKindOf_eq_none_iff.1 hkind))]
    rfl
  | some k =>
    rw [msgKindOf_eq_some_iff.1 hkind]
    exact keepMessage_eq (s := dropAssembly v)

end Sys2Proof.Machine
end

section
/-! PROOFS. A JOIN or a LEAVE applied: the entry, the frame number offered, the zones and the scale target
(R91, R92, R138). -/

namespace Sys2Proof.Machine

/-! ### The peer table, the frame number, the zones -/

/-- The entry of a station number that the table holds is the one set. -/
theorem State.setPeer_peer_same {s : State} {n : Nat} (hpos : 1 ≤ n) (hn : n ≤ s.peers.length)
    (e : PeerEntry) : (s.setPeer n e).peer n = e := by
  cases n with
  | zero => omega
  | succ n => simp [State.peer, State.setPeer, List.getD_eq_getElem?_getD, Nat.lt_of_succ_le hn]

/-- An entry is read from the table alone. -/
theorem State.peer_congr {s u : State} (h : u.peers = s.peers) (n : Nat) : u.peer n = s.peer n := by
  cases n with
  | zero => rfl
  | succ n => simp only [State.peer, h]

@[simp] theorem refreshTx_peer (s : State) (n : Nat) : (refreshTx s).peer n = s.peer n :=
  State.peer_congr (by simp) n

@[simp] theorem popQueue_peer (s : State) (n : Nat) : (popQueue s).peer n = s.peer n :=
  State.peer_congr (by simp) n

@[simp] theorem refreshTx_zone (s : State) (z : Nat) : (refreshTx s).zone z = s.zone z := by simp [State.zone]

@[simp] theorem popQueue_zone (s : State) (z : Nat) : (popQueue s).zone z = s.zone z := by simp [State.zone]

section Offer

variable (f : FrameNo) (straddle : Bool) (s : State)

/-- Whether a carried frame number is adopted (R138). -/
def adoptsFrame : Bool := !straddle && (s.timer.unset || ahead f s.timer.number)

theorem offerFrame_eq : offerFrame f straddle s
    = if adoptsFrame f straddle s then (s.setTimer { s.timer with number := f, unset := false }).count .adopt
      else s := by
  cases straddle <;> rfl

theorem offerFrame_timer : (offerFrame f straddle s).timer = { s.timer with
    number := if adoptsFrame f straddle s then f else s.timer.number,
    unset := s.timer.unset && !adoptsFrame f straddle s } := by
  rw [offerFrame_eq]
  cases adoptsFrame f straddle s <;> simp

theorem offerFrame_faults : (offerFrame f straddle s).faults = { s.faults with
    counters := { s.faults.counters with
      adopt := if adoptsFrame f straddle s then min 65535 (s.faults.counters.adopt + 1)
        else s.faults.counters.adopt } } := by
  rw [offerFrame_eq]
  cases adoptsFrame f straddle s <;> simp [CounterBlock.raise, satInc]

end Offer

/-- In the sky the enabled zones that name n take the target of its entry; no other zone changes (R33). -/
theorem touchZones_zone (n : Nat) (s : State) (z : Nat) : (touchZones n s).zone z
    = if s.life.state.inSky ∧ (s.zone z).enabled = true ∧ (s.zone z).neighbour = n
      then (s.zone z).apply s.timer.number s.lossStep (targetOf (s.peer n)) else s.zone z := by
  unfold touchZones
  by_cases hsky : s.life.state.inSky = true
  · rw [if_pos hsky]
    simp only [State.zone, State.setZones_zones, List.getD_eq_getElem?_getD, List.getElem?_map, hsky,
      true_and]
    cases s.zones[z]? with
    | none => rfl
    | some x =>
      simp only [Option.map_some, Option.getD_some, Zone.ifEnabled]
      by_cases hx : x.enabled = true
      · by_cases hn : x.neighbour = n <;> simp [hx, hn]
      · simp [hx]
  · rw [if_neg hsky, if_neg fun h => hsky h.1]

/-! ### The dispatch of a notice -/

/-- Only in START and SLEEP are a peer's messages dropped (R89, R114). -/
theorem dropsPeerMessages_eq_false {st : StationState} (hstart : st ≠ .start) (hsleep : st ≠ .sleep) :
    st.dropsPeerMessages = false := by
  cases st <;> simp_all [StationState.dropsPeerMessages]

section Notice

variable {s : State} {m : Message} {rest : List Message} {kind : HandoverKind}
  (hq : s.bus.rxQueue = m :: rest)

include hq

/-- In START and SLEEP a notice is dropped without a count (R89, R114). -/
theorem dispatchNotice_dropped (h : s.life.state = .start ∨ s.life.state = .sleep) :
    dispatchNotice m.kind kind s = popQueue s := by
  rcases h with h | h <;> simp [dispatchNotice, hq, h, StationState.dropsPeerMessages]

variable (hstart : s.life.state ≠ .start) (hsleep : s.life.state ≠ .sleep)

include hstart hsleep

/-- Elsewhere one of a wrong length is counted and nothing else (R89). -/
theorem dispatchNotice_malformed (hlen : m.payload.length ≠ 8) :
    dispatchNotice m.kind kind s = (popQueue s).count .discard := by
  simp [dispatchNotice, hq, dropsPeerMessages_eq_false hstart hsleep, readNotice, hlen]

/-- One of the right length is applied (R91). -/
theorem dispatchNotice_applied {b : NoticeBody} (hb : readNotice m.payload = some b) :
    dispatchNotice m.kind kind s = applyNotice m.sender kind b m.straddle (popQueue s) := by
  simp [dispatchNotice, hq, dropsPeerMessages_eq_false hstart hsleep, hb]

end Notice

section Applied

variable (n : Nat) (kind : HandoverKind) (b : NoticeBody) (straddle : Bool) (s : State)

/-- The notice is put in its sender's entry (R91). -/
theorem applyNotice_peers : (applyNotice n kind b straddle s).peers
    = (s.setPeer n ((s.peer n).withNotice kind b)).peers := by
  simp [applyNotice]

/-- The frame number carried is offered, and adopted or not (R138). -/
theorem applyNotice_timer : (applyNotice n kind b straddle s).timer = { s.timer with
    number := if adoptsFrame b.frame straddle s then b.frame else s.timer.number,
    unset := s.timer.unset && !adoptsFrame b.frame straddle s } := by
  simp [applyNotice, offerFrame_timer, adoptsFrame]

/-- Nothing is reported; an adopted number is counted (R138). -/
theorem applyNotice_faults : (applyNotice n kind b straddle s).faults = { s.faults with
    counters := { s.faults.counters with
      adopt := if adoptsFrame b.frame straddle s then min 65535 (s.faults.counters.adopt + 1)
        else s.faults.counters.adopt } } := by
  simp [applyNotice, offerFrame_faults, adoptsFrame]

/-- The zones take the entry's target at the number already adopted (R33, R92). -/
theorem applyNotice_zone (z : Nat) : (applyNotice n kind b straddle s).zone z
    = if s.life.state.inSky ∧ (s.zone z).enabled = true ∧ (s.zone z).neighbour = n
      then (s.zone z).apply (applyNotice n kind b straddle s).timer.number s.lossStep
        (targetOf ((applyNotice n kind b straddle s).peer n))
      else s.zone z := by
  generalize hp : offerFrame b.frame straddle (s.setPeer n ((s.peer n).withNotice kind b)) = p
  have happly : applyNotice n kind b straddle s = recomputeTarget (touchZones n p) := by
    rw [← hp, applyNotice]
  have hzone : (recomputeTarget (touchZones n p)).zone z = (touchZones n p).zone z := by simp [State.zone]
  have hpeer : (recomputeTarget (touchZones n p)).peer n = p.peer n := State.peer_congr (by simp) n
  have hkept : p.zone z = s.zone z ∧ p.life = s.life ∧ p.lossStep = s.lossStep := by
    simp [← hp, State.zone, State.lossStep]
  obtain ⟨hz, hlife, hloss⟩ := hkept
  rw [happly, hzone, hpeer, touchZones_zone, hz, hlife, hloss]
  simp

/-- Every entry after a notice: the sender's with the notice in it, the others as they were. -/
theorem applyNotice_peer (k : Nat) : (applyNotice n kind b straddle s).peer k
    = (s.setPeer n ((s.peer n).withNotice kind b)).peer k :=
  State.peer_congr (applyNotice_peers n kind b straddle s) k

/-- The scale target is recomputed from the table as it then stands; no level record is taken (R77, R92). -/
theorem applyNotice_level : (applyNotice n kind b straddle s).level = { s.level with
    scaleTarget := scaleTargetOf s.level.capacity s.settings.hdr.floor
      (applyNotice n kind b straddle s).peers } := by
  simp [applyNotice]

end Applied

/-- Settles O38: the notice leaves the queue and is dropped, counted or applied, by the station state and
its length. -/
theorem noticeMarksEntryAndTellsBlocks : Obligations.NoticeMarksEntryAndTellsBlocks := by
  unfold Obligations.NoticeMarksEntryAndTellsBlocks
  intro s m rest c kind hcalm hq hc
  have hrun : exec c s = .next (refreshTx (dispatchNotice m.kind kind s)) := by
    rcases hc with ⟨rfl, hm, rfl⟩ | ⟨rfl, hm, rfl⟩ <;> rw [hm]
    · exact congrArg _ (whenRunning_of_calm hcalm _)
    · exact congrArg _ (whenRunning_of_calm hcalm _)
  have hpop : popQueue s = { s with bus := { s.bus with rxQueue := rest } } := by
    rw [popQueue, hq]
    rfl
  refine ⟨fun h => ?dropped, fun hstart hsleep =>
    ⟨fun hlen => ?malformed, fun hlen hpos hle htable => ?applied⟩⟩
  case dropped => rw [hrun, dispatchNotice_dropped hq h, hpop]
  case malformed =>
    rw [hrun, dispatchNotice_malformed hq hstart hsleep hlen, hpop]
    rfl
  case applied =>
    obtain ⟨b, hread, hb⟩ : ∃ b, readNotice m.payload = some b ∧ b = {
        frame := BitVec.ofNat 16 (wordAt m.payload 0), start := BitVec.ofNat 16 (wordAt m.payload 2),
        code := min 6 (byteAt m.payload 4), capacity := min 4095 (wordAt m.payload 6) } :=
      ⟨_, if_pos hlen, rfl⟩
    have hframe : b.frame = BitVec.ofNat 16 (wordAt m.payload 0) := by rw [hb]
    rw [hrun, dispatchNotice_applied hq hstart hsleep hread]
    refine ⟨_, rfl, by simp [applyNotice, hq], ?entry, fun k hk => ?others, ⟨?timer, ?faults⟩,
      fun z => ?zones, ?level, by simp [applyNotice]⟩
    case entry =>
      rw [refreshTx_peer, applyNotice_peer, State.setPeer_peer_same hpos (by simpa [htable] using hle),
        popQueue_peer, hb]
      rcases hc with ⟨-, -, rfl⟩ | ⟨-, -, rfl⟩ <;> rfl
    case others => rw [refreshTx_peer, applyNotice_peer, State.setPeer_peer_other hk, popQueue_peer]
    case timer =>
      simpa [adoptsFrame, hframe] using applyNotice_timer m.sender kind b m.straddle (popQueue s)
    case faults =>
      simpa [adoptsFrame, hframe] using applyNotice_faults m.sender kind b m.straddle (popQueue s)
    case zones =>
      simpa [State.lossStep] using applyNotice_zone m.sender kind b m.straddle (popQueue s) z
    case level => simpa using applyNotice_level m.sender kind b m.straddle (popQueue s)

end Sys2Proof.Machine
end

section
/-! PROOFS. The transmitter's way to its message (R115 to R119). -/

namespace Sys2Proof.Machine

section Sendable

variable (s : State)

/-- When the handover notice is sendable (R102, R115). -/
theorem noticeSendable_iff : s.noticeSendable = true ↔ s.stn ≠ 0 ∧ s.bus.handoverWanted = true
    ∧ (s.life.state = .joining ∨ s.life.state = .leaving) ∧ s.life.handover ≠ none := by
  have hstate : s.life.state.sendsNotice = true ↔ s.life.state = .joining ∨ s.life.state = .leaving := by
    cases s.life.state <;> simp [StationState.sendsNotice]
  simp [State.noticeSendable, hstate, Option.isSome_iff_ne_none, and_assoc]

/-- When the oldest answer is sendable (R102, R115). -/
theorem answerSendable_iff : s.answerSendable = true ↔ s.stn ≠ 0 ∧ s.bus.answers ≠ []
    ∧ s.life.state ≠ .start ∧ s.life.state ≠ .measure := by
  have hstate : s.life.state.sendsAnswer = true ↔ s.life.state ≠ .start ∧ s.life.state ≠ .measure := by
    cases s.life.state <;> simp [StationState.sendsAnswer]
  simp [State.answerSendable, hstate, and_assoc]

/-- When the STATUS is sendable (R102, R115). -/
theorem statusSendable_iff : s.statusSendable = true ↔ s.stn ≠ 0 ∧ s.bus.statusWanted = true
    ∧ s.life.state ≠ .start ∧ s.life.state ≠ .measure ∧ s.life.state ≠ .sleep := by
  have hstate : s.life.state.sendsStatus = true
      ↔ s.life.state ≠ .start ∧ s.life.state ≠ .measure ∧ s.life.state ≠ .sleep := by
    cases s.life.state <;> simp [StationState.sendsStatus]
  simp [State.statusSendable, hstate, and_assoc]

end Sendable

/-! ### The times of the transmitter -/

/-- The end of a time that does not run does nothing. -/
theorem atDeadline_of_none {s : State} {deadline : State → Option Nat} (h : s.calm)
    (hd : deadline s = none) (f : State → State) : atDeadline deadline f s = refreshTx s := by
  unfold atDeadline
  rw [whenRunning_of_calm h]
  simp [hd]

/-- A time of the transmitter runs in its own state alone. -/
theorem txDeadline_of_ne {s : State} {st : TxState} (h : s.bus.txState ≠ st) : s.txDeadline st = none :=
  if_neg h

/-- What a running clock moves at all: the time, the output link, the scan and its codes. -/
theorem advanceTo_eq (t : Nat) (s : State) : ∃ e sc cs, advanceTo t s
    = { s with now := max t s.now, encoder := e, scan := sc, converter := cs } := by
  rcases Nat.lt_or_ge s.now t with h | h
  · exact ⟨_, _, _, by rw [advanceTo_later h, Nat.max_eq_left (Nat.le_of_lt h)]⟩
  · exact ⟨s.encoder, s.scan, s.converter, by rw [advanceTo_past h, Nat.max_eq_right h]⟩

/-- What is sendable does not change as time runs on. -/
theorem advanceTo_sendable (t : Nat) (s : State) :
    (advanceTo t s).noticeSendable = s.noticeSendable ∧ (advanceTo t s).answerSendable = s.answerSendable
      ∧ (advanceTo t s).statusSendable = s.statusSendable := by
  simp [State.noticeSendable, State.answerSendable, State.statusSendable, State.stn]

/-- A message on the line is not disturbed (R118). -/
theorem refreshTx_of_sending {s : State} (h : s.bus.txState = .sending) : refreshTx s = s := by
  simp [refreshTx, h]

/-- With nothing sendable the transmitter stays in IDLE (R118). -/
theorem refreshTx_backToIdle {s : State} (h : s.anySendable = false) :
    refreshTx (backToIdle s) = backToIdle s := by
  have hany : (backToIdle s).anySendable = false := h
  have hidle : (backToIdle s).bus.txState = .idle := rfl
  simp [refreshTx, hidle, hany]

/-! ### The choice at the lead (R119) -/

section Lead

variable {s : State}

theorem beginLead_notice {h : Handover} (hn : s.noticeSendable = true) (hh : s.life.handover = some h) :
    beginLead s = sendNotice h s := by
  simp [beginLead, hn, hh]

theorem beginLead_answer {a : AnswerRecord} {rest : List AnswerRecord} (hn : s.noticeSendable = false)
    (hs : s.answerSendable = true) (ha : s.bus.answers = a :: rest) : beginLead s = sendAnswer a s := by
  simp [beginLead, hn, hs, ha]

theorem beginLead_status (hn : s.noticeSendable = false) (ha : s.answerSendable = false)
    (hs : s.statusSendable = true) : beginLead s = sendStatus s := by
  simp [beginLead, hn, ha, hs]

theorem beginLead_nothing (hn : s.noticeSendable = false) (ha : s.answerSendable = false)
    (hs : s.statusSendable = false) : beginLead s = backToIdle s := by
  simp [beginLead, hn, ha, hs]

end Lead

/-- The message kind of a handover notice (R101). -/
theorem HandoverKind.msgKind_eq (k : HandoverKind) : k.msgKind = if k = .join then .join else .leave := by
  cases k <;> rfl

/-- Settles O47: each time by its own state's deadline, and at the lead by what is sendable. -/
theorem transmitterGainsTheLine : Obligations.TransmitterGainsTheLine := by
  unfold Obligations.TransmitterGainsTheLine
  refine ⟨rfl, fun s hcalm => ⟨noticeSendable_iff s, answerSendable_iff s, statusSendable_iff s,
    fun h => congrArg _ (atDeadline_of_none hcalm (txDeadline_of_ne h) _),
    fun h => congrArg _ (atDeadline_of_none hcalm (txDeadline_of_ne h) _),
    fun h => congrArg _ (atDeadline_of_none hcalm (txDeadline_of_ne h) _),
    fun t hst ht => ?gap, fun t hst ht => ?backoff, fun t hst ht => ?lead⟩⟩
  all_goals obtain ⟨e, sc, cs, hadv⟩ := advanceTo_eq t s
  case gap =>
    have hd : s.txDeadline .gap = some t := by simp [State.txDeadline, hst, ht]
    have hrun : exec .gapElapsed s = .next (refreshTx (endGap (advanceTo t s))) :=
      congrArg _ (atDeadline_of_calm hcalm hd _)
    rw [hrun, endGap]
    by_cases hleft : 0 < s.bus.backoff
    · rw [if_pos (by simpa using hleft), if_pos hleft, hadv]
      rfl
    · have hnone : (0 : Nat) = s.bus.backoff := (Nat.eq_zero_of_not_pos hleft).symm
      rw [if_neg (by simpa using hleft), if_neg hleft, enterLead, hnone, hadv]
      rfl
  case backoff =>
    have hd : s.txDeadline .backoff = some t := by simp [State.txDeadline, hst, ht]
    have hrun : exec .backoffElapsed s = .next (refreshTx (enterLead (advanceTo t s))) :=
      congrArg _ (atDeadline_of_calm hcalm hd _)
    rw [hrun, hadv]
    rfl
  case lead =>
    have hd : s.txDeadline .lead = some t := by simp [State.txDeadline, hst, ht]
    have hrun : exec .leadStart s = .next (refreshTx (beginLead (advanceTo t s))) :=
      congrArg _ (atDeadline_of_calm hcalm hd _)
    obtain ⟨hnotice, hanswer, hstatus⟩ := advanceTo_sendable t s
    rw [hrun]
    refine ⟨fun h hs hh => ?notice, fun a rest hn hs ha => ?answer, fun hn ha hs => ?status,
      fun hn ha hs => ?nothing⟩
    case notice =>
      rw [beginLead_notice (hnotice.trans hs) (by simpa using hh), refreshTx_of_sending rfl,
        ← h.kind.msgKind_eq, hadv]
      rfl
    case answer =>
      rw [beginLead_answer (hnotice.trans hn) (hanswer.trans hs) (by simpa using ha),
        refreshTx_of_sending rfl, hadv]
      rfl
    case status =>
      rw [beginLead_status (hnotice.trans hn) (hanswer.trans ha) (hstatus.trans hs),
        refreshTx_of_sending rfl, hadv]
      rfl
    case nothing =>
      have hany : (advanceTo t s).anySendable = false := by
        simp [State.anySendable, hnotice, hanswer, hstatus, hn, ha, hs]
      rw [beginLead_nothing (hnotice.trans hn) (hanswer.trans ha) (hstatus.trans hs),
        refreshTx_backToIdle hany, hadv]
      rfl

end Sys2Proof.Machine
end

section
/-! PROOFS. The transmitter's own moves, and how its message ends: sent, struck by a collision or abandoned
(R115 to R124). -/

namespace Sys2Proof.Machine

/-! ### The transmitter's own moves (R118) -/

theorem anySendable_iff (s : State) : s.anySendable = true ↔
    s.noticeSendable = true ∨ s.answerSendable = true ∨ s.statusSendable = true := by
  simp [State.anySendable, or_assoc]

/-- The back-off runs in BACKOFF alone (R118). -/
theorem Bus.backoffLeft_eq (b : Bus) (now bitTime : Nat) : b.backoffLeft now bitTime
    = if b.txState = .backoff then b.backoff - (now - b.txSince) / bitTime else b.backoff := by
  unfold Bus.backoffLeft
  cases b.txState <;> rfl

/-- With an item sendable a transmitter in IDLE enters GAP. -/
theorem refreshTx_of_idle {s : State} (hst : s.bus.txState = .idle) (h : s.anySendable = true) :
    refreshTx s = s.setBus { s.bus with txState := .gap, txSince := s.now } := by
  simp [refreshTx, hst, h]

/-- With none it stays there. -/
theorem refreshTx_of_idle_nothing {s : State} (hst : s.bus.txState = .idle) (h : s.anySendable = false) :
    refreshTx s = s := by
  simp [refreshTx, hst, h]

section Waiting

variable {s : State} (hst : s.bus.txState = .gap ∨ s.bus.txState = .backoff ∨ s.bus.txState = .lead)

include hst

/-- With nothing left to send a transmitter that waits for the line returns to IDLE. -/
theorem refreshTx_of_waiting_nothing (h : s.anySendable = false) :
    refreshTx s = s.setBus { s.bus with
      txState := .idle, txSince := s.now, backoff := s.bus.backoffLeft s.now s.bitTime } := by
  rcases hst with hst | hst | hst <;> simp [refreshTx, hst, h]

/-- With an item sendable it waits on. -/
theorem refreshTx_of_waiting (h : s.anySendable = true) : refreshTx s = s := by
  rcases hst with hst | hst | hst <;> simp [refreshTx, hst, h]

end Waiting

/-- Settles O4: by the state that the transmitter is in. -/
theorem transmitterMovesWithItsItems : Obligations.TransmitterMovesWithItsItems := by
  unfold Obligations.TransmitterMovesWithItsItems
  refine fun s => ⟨anySendable_iff s, refreshTx_of_idle, fun hst h => ?waiting, ?still⟩
  case waiting =>
    rw [refreshTx_of_waiting_nothing hst h, Bus.backoffLeft_eq]
    rfl
  case still =>
    rintro (hsending | hidle)
    · exact refreshTx_of_sending hsending
    cases hst : s.bus.txState with
    | idle => exact refreshTx_of_idle_nothing hst (hidle.1 hst)
    | sending => exact refreshTx_of_sending hst
    | gap | backoff | lead =>
      have hany : s.anySendable = true := by simpa [hst] using hidle
      exact refreshTx_of_waiting (by simp [hst]) hany

/-! ### The release of a reset (R164, R165) -/

/-- Settles O8: the clock runs to the release, and then the straps, the bus and the start record are set. -/
theorem resetReleaseSamplesStraps : Obligations.ResetReleaseSamplesStraps := by
  unfold Obligations.ResetReleaseSamplesStraps
  intro t straps s hheld
  have hrun : exec (.resetRelease t straps) s = .next (releaseReset straps (advanceTo t s)) :=
    congrArg _ (if_pos hheld)
  obtain ⟨e, sc, cs, hadv⟩ := advanceTo_eq t s
  rw [hrun, hadv]
  rfl

/-! ### An answer leaves the FIFO (R116, R182) -/

/-- The head answer leaves, and with the last one a pending RESTART is released. -/
theorem answerLeaves_eq (s : State) : answerLeaves s = { s with
    bus := { s.bus with answers := s.bus.answers.tail },
    console := { s.console with
      restartReleased := s.console.restartReleased
        || (s.console.restartPending && s.bus.answers.tail.isEmpty) } } := by
  unfold answerLeaves
  by_cases hlast : (s.console.restartPending && s.bus.answers.tail.isEmpty) = true
  · simp [State.setBus, State.setConsole, hlast]
  · simp [State.setBus, hlast]

/-- An answer that was the item on the line leaves; any other item leaves the FIFO alone. -/
theorem answerLeaves_if (i : LineItem) (s : State) :
    (if (i == .answer) = true then answerLeaves s else s) = { s with
      bus := { s.bus with answers := if i = .answer then s.bus.answers.tail else s.bus.answers },
      console := { s.console with
        restartReleased := s.console.restartReleased
          || (i == .answer && s.console.restartPending && s.bus.answers.tail.isEmpty) } } := by
  by_cases hi : i = .answer
  · subst hi
    exact (if_pos rfl).trans (answerLeaves_eq s)
  · have hne : (i == LineItem.answer) = false := beq_eq_false_iff_ne.2 hi
    simp [hi, hne]

/-! ### The message is sent (R123) -/

/-- The message ends with the eleven bits of its check character, so that is the character on the line. -/
theorem characterIndex_of_end {b : Bus} {t bitTime : Nat} (hpos : 0 < bitTime)
    (ht : b.txSince + 11 * b.message.length * bitTime ≤ t) :
    characterIndex b t bitTime = b.message.length - 1 := by
  have hpast : b.message.length ≤ (t - b.txSince) / (11 * bitTime) := by
    rw [Nat.le_div_iff_mul_le (by omega), Nat.mul_left_comm, ← Nat.mul_assoc]
    omega
  unfold characterIndex
  omega

theorem State.bitTime_pos (s : State) : 0 < s.bitTime := by
  unfold State.bitTime
  split <;> decide

/-- What is left of the bus and the console when the message is sent. -/
theorem messageEnds_eq {s : State} (ht : s.bus.txSince + 11 * s.bus.message.length * s.bitTime ≤ s.now) :
    messageEnds s = { s with
      console := { s.console with
        restartReleased := s.console.restartReleased
          || (s.bus.item == .answer && s.console.restartPending && s.bus.answers.tail.isEmpty) },
      bus := { s.bus with
        txState := .idle, txSince := s.now, item := .none, message := [], attempts := 0, backoff := 0,
        lastStart := s.bus.txSince + 11 * (s.bus.message.length - 1) * s.bitTime, gap := 48,
        answers := if s.bus.item = .answer then s.bus.answers.tail else s.bus.answers } } := by
  unfold messageEnds
  dsimp only
  rw [answerLeaves_if, characterStart, characterIndex_of_end s.bitTime_pos ht, Nat.mul_right_comm]
  rfl

/-- Settles O49: the message ends at its own time, and the transmitter goes on from IDLE. -/
theorem messageSentFreesTheLine : Obligations.MessageSentFreesTheLine := by
  unfold Obligations.MessageSentFreesTheLine
  refine fun s t hcalm => ⟨fun h => congrArg _ (atDeadline_of_none hcalm (txDeadline_of_ne h) _),
    fun hst ht => ?sent⟩
  have hd : s.txDeadline .sending = some t := by simp [State.txDeadline, hst, ht]
  have hrun : exec .messageSent s = .next (refreshTx (messageEnds (advanceTo t s))) :=
    congrArg _ (atDeadline_of_calm hcalm hd _)
  obtain ⟨e, sc, cs, hadv⟩ := advanceTo_eq t s
  have hends : (advanceTo t s).bus.txSince
      + 11 * (advanceTo t s).bus.message.length * (advanceTo t s).bitTime ≤ (advanceTo t s).now := by
    rw [hadv]
    exact ht ▸ Nat.le_max_left t s.now
  refine ⟨_, _, hrun, rfl, ?v, ?tx, by simp [messageEnds_eq hends]⟩
  case v =>
    rw [messageEnds_eq hends, hadv]
    rfl
  case tx =>
    have hidle : (messageEnds (advanceTo t s)).bus.txState = .idle := by rw [messageEnds_eq hends]
    cases hany : (messageEnds (advanceTo t s)).anySendable with
    | true => rw [refreshTx_of_idle hidle hany]; rfl
    | false => rw [refreshTx_of_idle_nothing hidle hany, hidle]; rfl

end Sys2Proof.Machine
end

section
/-! PROOFS. A collision: counted, the item put back with a back-off or abandoned, the driver stopped
(R121, R122, R124). -/

namespace Sys2Proof.Machine

/-- A report and a counter do not touch each other. -/
theorem FaultUnit.report_withCounters (u : FaultUnit) (c : CounterBlock) (r : FaultRecord) :
    { u with counters := c }.report r = { u.report r with counters := c } := by
  unfold FaultUnit.report
  cases u.record <;> rfl

/-- A report and a count together. -/
theorem State.report_count (s : State) (k : FaultKind) (d : Nat) (c : Counter) :
    (s.report k d).count c = { s with faults := {
      s.faults.report { kind := k, frame := s.timer.number, state := s.life.state, detail := d } with
      counters := s.faults.counters.raise c } } := by
  rw [State.count, State.report_faults, FaultUnit.report_counters]
  rfl

/-- One step of the generator, bit by bit: each moves up one place, and the new one comes in at the bottom
(R122). -/
theorem eq_lfsrStep {r g : BitVec 16}
    (hnew : r.getLsbD 0 = (g.getLsbD 15 ^^ g.getLsbD 13 ^^ g.getLsbD 12 ^^ g.getLsbD 10))
    (hshift : ∀ i, i < 15 → r.getLsbD (i + 1) = g.getLsbD i) : r = lfsrStep g := by
  refine BitVec.eq_of_getLsbD_eq fun i hi => ?_
  unfold lfsrStep
  cases i with
  | zero => simpa using hnew
  | succ i =>
    have hbelow : i < 15 := Nat.lt_of_succ_lt_succ hi
    simpa [hi, hbelow] using (hshift i hbelow).trans (BitVec.getLsbD_eq_getElem (Nat.lt_of_succ_lt hi))

/-- Items are compared as they are decided to be equal. -/
theorem LineItem.beq_eq_decide (i j : LineItem) : (i == j) = decide (i = j) := rfl

/-- What goes back on the list of wanted items (R121). -/
theorem itemBack_eq (s : State) : itemBack s = { s with bus := { s.bus with
    statusWanted := s.bus.statusWanted || s.bus.item == .status,
    handoverWanted := s.bus.handoverWanted || (s.bus.item == .notice && s.life.handover.isSome) } } := by
  unfold itemBack
  cases hitem : s.bus.item with
  | none | answer => simp [LineItem.beq_eq_decide]
  | status => simp [LineItem.beq_eq_decide, State.wantStatus, State.setBus]
  | notice => cases hown : s.life.handover <;> simp [LineItem.beq_eq_decide, State.setBus]

section Collision

variable (s : State)

/-- The fault and the counter of a message given up, and the counts that start again (R124). -/
theorem abandon_eq : abandon s = { s with
    faults := { s.faults.report {
        kind := .busAbandon, frame := s.timer.number, state := s.life.state,
        detail := s.bus.messageKind } with
      counters := s.faults.counters.raise .abandon },
    console := { s.console with
      restartReleased := s.console.restartReleased
        || (s.bus.item == .answer && s.console.restartPending && s.bus.answers.tail.isEmpty) },
    bus := { s.bus with
      attempts := 0, backoff := 0,
      answers := if s.bus.item = .answer then s.bus.answers.tail else s.bus.answers } } := by
  refine (answerLeaves_if s.bus.item _).trans ?_
  rw [State.report_count]
  rfl

/-- A collision before the sixteenth: the next state of the generator gives the back-off (R121, R122). -/
theorem collide_of_attempts_lt (h : s.bus.attempts < 15) : collide s = { s with
    faults := { s.faults with counters := s.faults.counters.raise .collision },
    bus := { s.bus with
      attempts := s.bus.attempts + 1, lfsr := lfsrStep s.bus.lfsr,
      backoff := 40 * drawnSlots (lfsrStep s.bus.lfsr) (s.bus.attempts + 1),
      statusWanted := s.bus.statusWanted || s.bus.item == .status,
      handoverWanted := s.bus.handoverWanted || (s.bus.item == .notice && s.life.handover.isSome),
      txState := .gap, txSince := s.now, item := .none, message := [],
      lastStart := characterStart s.bus s.now s.bitTime, gap := 48,
      deaf := decide (0 < characterIndex s.bus s.now s.bitTime) } } := by
  have hnot : ¬16 ≤ s.bus.attempts + 1 := by omega
  refine (congrArg stopDriving (if_neg hnot)).trans ?_
  rw [itemBack_eq, drawBackoff]
  simp only [State.count, State.setFaults, State.setBus]
  rfl

/-- The sixteenth: the message is given up, and an answer leaves the FIFO (R124). -/
theorem collide_of_le_attempts (h : 15 ≤ s.bus.attempts) : collide s = { s with
    faults := { s.faults.report {
        kind := .busAbandon, frame := s.timer.number, state := s.life.state,
        detail := s.bus.messageKind } with
      counters := (s.faults.counters.raise .collision).raise .abandon },
    console := { s.console with
      restartReleased := s.console.restartReleased
        || (s.bus.item == .answer && s.console.restartPending && s.bus.answers.tail.isEmpty) },
    bus := { s.bus with
      attempts := 0, backoff := 0,
      answers := if s.bus.item = .answer then s.bus.answers.tail else s.bus.answers,
      txState := .gap, txSince := s.now, item := .none, message := [],
      lastStart := characterStart s.bus s.now s.bitTime, gap := 48,
      deaf := decide (0 < characterIndex s.bus s.now s.bitTime) } } := by
  have hlast : 16 ≤ s.bus.attempts + 1 := by omega
  refine (congrArg stopDriving (if_pos hlast)).trans ?_
  rw [abandon_eq, State.setBus_faults, State.count_faults, FaultUnit.report_withCounters]
  simp only [State.count, State.setFaults, State.setBus]
  rfl

end Collision

/-- Settles O48: time runs to the collision, which strikes the character then on the line. -/
theorem collisionBacksOffOrAbandons : Obligations.CollisionBacksOffOrAbandons := by
  unfold Obligations.CollisionBacksOffOrAbandons
  rintro t _ start index s hcalm rfl
  obtain ⟨e, sc, cs, hadv⟩ := advanceTo_eq t s
  have hbus : (advanceTo t s).bus = s.bus := by simp
  have hrun : exec (.collision t) s = .next (refreshTx
      (if (advanceTo t s).bus.txState = .sending then collide (advanceTo t s) else advanceTo t s)) :=
    congrArg _ (atTime_of_calm hcalm t _)
  rw [hrun, hbus]
  refine ⟨fun hst => by rw [if_neg hst], ?struck⟩
  rintro hst rfl rfl
  rw [if_pos hst]
  refine ⟨fun r hlt hnew hshift => ?backsOff, fun hle => ?abandons⟩
  case backsOff =>
    rw [collide_of_attempts_lt _ (hbus ▸ hlt), hadv, eq_lfsrStep hnew hshift]
    rfl
  case abandons =>
    rw [collide_of_le_attempts _ (hbus ▸ hle), hadv]
    rfl

end Sys2Proof.Machine
end

section
/-! PROOFS. The receive half's times: a start bit on the line, one that was not told, and the assembler's
timeout (R104, R111, R117, R118). -/

namespace Sys2Proof.Machine

/-- What a foreign start bit moves, by the transmitter's state (R117, R118). -/
theorem foreignStart_eq {s : State} (h : s.bus.txState ≠ .sending) (t : Nat) :
    foreignStart t s = { s with bus := { s.bus with
      lastStart := t, gap := 24, markSince := s.timer.lastMark.any fun m => decide (t < m),
      assembly := s.bus.assembly.map fun a => { a with lastStart := t },
      deaf := s.bus.deaf && decide (t < s.bus.lastStart + 22 * s.bitTime),
      txState := if s.bus.txState = .idle then .idle else .gap,
      txSince := if s.bus.txState = .idle then s.bus.txSince else t,
      backoff := if s.bus.txState = .backoff
        then s.bus.backoff - (t - s.bus.txSince) / s.bitTime else s.bus.backoff } } := by
  cases hst : s.bus.txState with
  | sending => exact absurd hst h
  | idle | gap | backoff | lead => 
    simp only [foreignStart, Bus.backoffLeft_eq, hst]
    rfl

/-- A station that is sending sees its own start bits. -/
theorem foreignStart_of_sending {s : State} (h : s.bus.txState = .sending) (t : Nat) :
    foreignStart t s = s := by
  simp [foreignStart, h]

/-- A character whose start bit is the last one told (R104). -/
theorem noteStart_of_told {s : State} (h : s.now ≤ s.bus.lastStart + 11 * s.bitTime) : noteStart s = s :=
  if_pos h

/-- A character whose start bit was not told began 10.5 bit times before its completion (R104). -/
theorem noteStart_of_untold {s : State} {start : Nat} (h : s.bus.lastStart + 11 * s.bitTime < s.now)
    (hstart : 2 * s.now = 2 * start + 21 * s.bitTime) : noteStart s = foreignStart start s := by
  have hbegan : s.now - s.completionTime = start := by
    unfold State.completionTime
    omega
  rw [noteStart, if_neg (Nat.not_le.2 h), hbegan]

theorem breakMessage_eq (s : State) : breakMessage s = { s with
    bus := { s.bus with assembly := none },
    faults := { s.faults with counters := { s.faults.counters with
      broken := min 65535 (s.faults.counters.broken + 1) } } } := rfl

/-- Settles O35: a start bit told, one not told, and the timeout of a message in progress. -/
theorem startBitMakesTheLineBusy : Obligations.StartBitMakesTheLineBusy := by
  unfold Obligations.StartBitMakesTheLineBusy
  refine ⟨fun t s hcalm hst => ?own, ?foreign, fun s => noteStart_of_told,
    fun start s => noteStart_of_untold, fun s hcalm => ⟨fun a ha => ?timeout, fun ha => ?idle⟩⟩
  case own =>
    have hrun : exec (.startBit t) s
        = .next (refreshTx (foreignStart (advanceTo t s).now (advanceTo t s))) :=
      congrArg _ (atTime_of_calm hcalm t _)
    rw [hrun, foreignStart_of_sending (by simpa using hst)]
  case foreign =>
    rintro t _ s hcalm hst rfl
    have hrun : exec (.startBit t) s
        = .next (refreshTx (foreignStart (advanceTo t s).now (advanceTo t s))) :=
      congrArg _ (atTime_of_calm hcalm t _)
    obtain ⟨e, sc, cs, hadv⟩ := advanceTo_eq t s
    rw [hrun, foreignStart_eq (by simpa using hst), hadv]
    rfl
  case timeout =>
    have hd : s.assemblerDeadline = some (a.lastStart + 22 * s.bitTime) := by
      simp [State.assemblerDeadline, ha, assemblerTimeout]
    have hrun : exec .assemblerTimeout s
        = .next (refreshTx (breakMessage (advanceTo (a.lastStart + 22 * s.bitTime) s))) :=
      congrArg _ (atDeadline_of_calm hcalm hd _)
    rw [hrun, breakMessage_eq]
    simp
  case idle =>
    have hd : s.assemblerDeadline = none := by simp [State.assemblerDeadline, ha]
    exact congrArg _ (atDeadline_of_none hcalm hd _)

end Sys2Proof.Machine
end

section
/-! PROOFS. A character's eleven bits, and what the assembler makes of it (R104, R110, R113, R118, R121). -/

namespace Sys2Proof.Machine

/-! ### The eleven bits (R104) -/

/-- The bits of a character in the order in which they are on the line. -/
theorem Character.getLsbD_bits (ch : Character) {i : Nat} (hi : i < 11) : ch.bits.getLsbD i
    = if i = 0 then false else if i ≤ 8 then ch.data.getLsbD (i - 1)
      else if i = 9 then ch.mark else ch.stop := by
  simp only [Character.bits, BitVec.getLsbD_append]
  obtain rfl | hdata | rfl | rfl : i = 0 ∨ (1 ≤ i ∧ i ≤ 8) ∨ i = 9 ∨ i = 10 := by omega
  · simp
  · have hstart : ¬i < 1 := by omega
    have hin : i - 1 < 8 := by omega
    have hne : i ≠ 0 := by omega
    simp [hstart, hin, hne, hdata.2]
  · simp
  · simp

/-- Eleven bits that begin with a start bit are those of a character. -/
theorem exists_character {bits : CharacterBits} (h : bits.getLsbD 0 = false) :
    ∃ ch : Character, bits = ch.bits := by
  refine ⟨⟨bits.getLsbD 10, bits.getLsbD 9, bits.extractLsb' 1 8⟩, BitVec.eq_of_getLsbD_eq fun i hi => ?_⟩
  rw [Character.getLsbD_bits _ hi]
  obtain rfl | hdata | rfl | rfl : i = 0 ∨ (1 ≤ i ∧ i ≤ 8) ∨ i = 9 ∨ i = 10 := by omega
  · exact h
  · have hne : i ≠ 0 := by omega
    have hin : i - 1 < 8 := by omega
    have hback : 1 + (i - 1) = i := by omega
    rw [if_neg hne, if_pos hdata.2, BitVec.getLsbD_extractLsb', hback, decide_eq_true hin, Bool.true_and]
  · rfl
  · rfl

/-! ### From the line to the assembler (R110, R118, R121) -/

/-- Without a start bit there is no character. -/
theorem receive_of_no_start {bits : CharacterBits} (h : bits.getLsbD 0 = true) (s : State) :
    receive bits s = s := by
  simp only [receive, readCharacter, h, if_true]

section Receive

variable {s : State} (ch : Character)

/-- While the station sends, a character goes to the echo comparison. -/
theorem receive_of_sending (h : s.bus.txState = .sending) : receive ch.bits s = s := by
  simp only [receive, readCharacter_bits, h]

/-- Otherwise it is heard, its start bit noted. -/
theorem receive_of_not_sending (h : s.bus.txState ≠ .sending) :
    receive ch.bits s = hear ch (noteStart s) := by
  cases hst : s.bus.txState with
  | sending => exact absurd hst h
  | idle | gap | backoff | lead => simp only [receive, readCharacter_bits, hst]

/-- A noted start bit begins and ends no message. -/
theorem noteStart_assembly_eq_none : (noteStart s).bus.assembly = none ↔ s.bus.assembly = none := by
  unfold noteStart foreignStart
  split
  · rfl
  · cases s.bus.txState <;> simp

/-! ### The assembler (R110) -/

/-- With no message in progress anything but a lead is ignored. -/
theorem assemble_of_none (ha : s.bus.assembly = none) (h : ch.stop = false ∨ ch.mark = false) :
    assemble ch s = s := by
  rcases h with h | h
  · simp [assemble, breakIfAny, ha, h]
  · simp [assemble, breakIfAny, ha, h]

/-- A message in progress is discarded, and counted. -/
theorem breakIfAny_eq : breakIfAny s = if s.bus.assembly = none then s else breakMessage s := by
  unfold breakIfAny
  cases s.bus.assembly <;> simp

/-- A framing error discards the message in progress. -/
theorem assemble_framingError (ha : s.bus.assembly ≠ none) (hstop : ch.stop = false) :
    assemble ch s = breakMessage s := by
  rw [assemble, if_pos hstop, breakIfAny_eq, if_neg ha]

/-- A lead begins a message, and discards the one in progress. -/
theorem assemble_lead (hstop : ch.stop = true) (hmark : ch.mark = true) :
    assemble ch s = { s with
      bus := { s.bus with assembly := some {
        lead := ch.data, length := none, payload := [], lastStart := s.bus.lastStart,
        straddle := s.bus.markSince } },
      faults := if s.bus.assembly = none then s.faults
        else { s.faults with counters := { s.faults.counters with
          broken := min 65535 (s.faults.counters.broken + 1) } } } := by
  have hbegin : assemble ch s = beginMessage ch.data (breakIfAny s) := by simp [assemble, hstop, hmark]
  rw [hbegin, breakIfAny_eq]
  by_cases ha : s.bus.assembly = none
  · rw [if_pos ha, if_pos ha]
    rfl
  · rw [if_neg ha, if_neg ha]
    rfl

/-- Any other character extends the message in progress. -/
theorem assemble_extend {a : Assembly} (ha : s.bus.assembly = some a) (hstop : ch.stop = true)
    (hmark : ch.mark = false) : assemble ch s = extendMessage a ch.data s := by
  simp [assemble, ha, hstop, hmark]

end Receive

section Extend

variable {a : Assembly} {d : Byte} (s : State)

theorem extendMessage_tooLong (ha : a.length = none) (h : 60 < d.toNat) :
    extendMessage a d s = breakMessage s := by
  simp only [extendMessage, ha, if_pos h]

theorem extendMessage_length (ha : a.length = none) (h : d.toNat ≤ 60) :
    extendMessage a d s
      = s.setBus { s.bus with assembly := some { a with length := some d.toNat } } := by
  simp only [extendMessage, ha, if_neg (Nat.not_lt.2 h)]

theorem extendMessage_payload {n : Nat} (ha : a.length = some n) (h : a.payload.length < n) :
    extendMessage a d s
      = s.setBus { s.bus with assembly := some { a with payload := a.payload ++ [d] } } := by
  simp only [extendMessage, ha, if_pos h]

end Extend

/-- Settles O33: the bits are read back, and each character goes to its case of the assembler. -/
theorem characterReachesTheAssembler : Obligations.CharacterReachesTheAssembler := by
  unfold Obligations.CharacterReachesTheAssembler
  refine ⟨fun ch => ⟨readCharacter_bits ch, ?start, fun i hi => ?data, ?mark, ?stop⟩,
    fun bits => exists_character, fun t bits s hcalm h => ?none,
    fun t ch s hcalm => ⟨fun hst => ?sending, ?hearing⟩⟩
  case start => rw [ch.getLsbD_bits (by omega), if_pos rfl]
  case data =>
    rw [ch.getLsbD_bits (by omega), if_neg (by omega), if_pos (by omega), Nat.add_sub_cancel_left]
  case mark => exact ch.getLsbD_bits (by omega)
  case stop => exact ch.getLsbD_bits (by omega)
  case none =>
    exact congrArg _ ((atTime_of_calm hcalm t _).trans (congrArg _ (receive_of_no_start h _)))
  case sending =>
    have hadv : (advanceTo t s).bus.txState = .sending := by simpa using hst
    exact congrArg _ ((atTime_of_calm hcalm t _).trans (congrArg _ (receive_of_sending ch hadv)))
  case hearing =>
    rintro hst v hv broken rfl
    have hadv : (advanceTo t s).bus.txState ≠ .sending := by simpa using hst
    have hrun : exec (.characterReceived t ch.bits) s = .next (refreshTx (hear ch v)) :=
      hv ▸ congrArg _ ((atTime_of_calm hcalm t _).trans (congrArg _ (receive_of_not_sending ch hadv)))
    have hfaults : v.faults = s.faults := by simp [hv]
    have hnone : v.bus.assembly = none ↔ s.bus.assembly = none := by
      rw [hv, noteStart_assembly_eq_none]
      simp
    have hheard : v.bus.deaf = false → hear ch v = assemble ch v := fun h => by simp [hear, h]
    rw [hrun, ← hfaults]
    refine ⟨fun hdeaf => ?deaf, fun ha h => ?ignored, fun hdeaf ha hstop => ?framing,
      fun hdeaf hstop hmark => ?lead, fun a hdeaf ha hstop hmark => ?extend⟩
    case deaf => rw [hear, if_pos hdeaf]
    case ignored => rw [hear, assemble_of_none ch (hnone.2 ha) h, ite_self]
    case framing => rw [hheard hdeaf, assemble_framingError ch (mt hnone.1 ha) hstop, breakMessage_eq]
    case lead =>
      rw [hheard hdeaf, assemble_lead ch hstop hmark]
      simp only [hnone]
    case extend =>
      rw [hheard hdeaf, assemble_extend ch ha hstop hmark]
      refine ⟨fun hlen h => ?_, fun hlen h => ?_, fun n hlen h => ?_⟩
      · rw [extendMessage_tooLong v hlen h, breakMessage_eq]
      · rw [extendMessage_length v hlen h]
        rfl
      · rw [extendMessage_payload v hlen h]
        rfl

end Sys2Proof.Machine
end

section
/-! PROOFS. A message on the line: its check character, the bits that the driver holds, and what another
station's assembler makes of them (R104 to R106, R110, R118). -/

namespace Sys2Proof.Machine

/-! ### The check character (R106) -/

/-- One more byte into the register. -/
theorem crc8_concat (bs : List Byte) (b : Byte) : crc8 (bs ++ [b]) = crcByte (crc8 bs) b := by
  rw [crc8, List.foldl_append]
  rfl

/-- A byte goes in by exclusive-or, and eight shifts follow. -/
theorem crcByte_eq (r b : Byte) : crcByte r b
    = crcShift (crcShift (crcShift (crcShift (crcShift (crcShift (crcShift (crcShift (r ^^^ b)))))))) := rfl

/-- The top bit decides what a shift puts in. -/
theorem crcShift_eq (r : Byte) : crcShift r = if r.getLsbD 7 then (r <<< 1) ^^^ 0x31 else r <<< 1 := by
  rw [crcShift, BitVec.msb_eq_getLsbD_last]

/-! ### The driver (R118) -/

/-- The character that carries a byte of a message: the mark bit is the lead's alone. -/
theorem messageCharacters_getElem? {bytes : List Byte} {j : Nat} {b : Byte} (h : bytes[j]? = some b) :
    (messageCharacters bytes)[j]? = some { stop := true, mark := j == 0, data := b } := by
  simp [messageCharacters, h]

/-- The bit that is on the line at a time: i of character j. -/
theorem bit_on_line {since w i j t : Nat} (hi : i < 11) (hfrom : since + (11 * j + i) * w ≤ t)
    (hto : t < since + (11 * j + i + 1) * w) :
    (t - since) / w / 11 = j ∧ (t - since) / w % 11 = i := by
  have hbit : (t - since) / w = 11 * j + i := by
    refine Nat.div_eq_of_lt_le ?_ ?_ <;> omega
  rw [hbit]
  omega

/-- A driver in SENDING holds the line at the bit of the character that is on it. -/
theorem drivenLevel_of_sending {s : State} {i j t : Nat} {b : Byte} (hst : s.bus.txState = .sending)
    (hb : s.bus.message[j]? = some b) (hi : i < 11) (hfrom : s.bus.txSince + (11 * j + i) * s.bitTime ≤ t)
    (hto : t < s.bus.txSince + (11 * j + i + 1) * s.bitTime) :
    s.drivenLevel t = some ((Character.mk true (j == 0) b).bits.getLsbD i) := by
  obtain ⟨hchar, hbit⟩ := bit_on_line hi hfrom hto
  simp only [State.drivenLevel, hst, hchar, hbit, messageCharacters_getElem? hb]

/-! ### The assembler at the other end (R110) -/

/-- The characters of a message: the lead with its mark, the others without. -/
theorem messageCharacters_cons (lead : Byte) (bytes : List Byte) :
    messageCharacters (lead :: bytes) = Character.mk true true lead :: bytes.map (Character.mk true false) := by
  refine List.ext_getElem (by simp [messageCharacters]) fun i _ _ => ?_
  cases i <;> simp [messageCharacters]

/-- Kind and sender are read back from the lead (R105). -/
theorem leadByte_toNat (kind : MsgKind) {sender : Nat} (h : sender < 32) :
    (leadByte kind sender).toNat / 32 = kind.code ∧ (leadByte kind sender).toNat % 32 = sender := by
  have hcode : kind.code ≤ 4 := by cases kind <;> decide
  rw [leadByte, BitVec.toNat_ofNat, Nat.mod_eq_of_lt (by omega)]
  omega

section Assembled

variable (s : State) (lead : Byte)

/-- The assembler with a message in progress whose lead came at the last start bit: so much of it has been
read (R110, R113). -/
def State.withAssembly (length : Option Nat) (payload : List Byte) : State :=
  s.setBus { s.bus with assembly := some {
    lead := lead, length := length, payload := payload, lastStart := s.bus.lastStart,
    straddle := s.bus.markSince } }

/-- With none in progress before, discarding it leaves what there was. -/
theorem dropAssembly_withAssembly {s : State} (h : s.bus.assembly = none) (length : Option Nat)
    (payload : List Byte) : dropAssembly (s.withAssembly lead length payload) = s := by
  show s.setBus { s.bus with assembly := none } = s
  rw [← h]
  rfl

/-- The lead begins the message. -/
theorem assemble_lead_of_none {s : State} (h : s.bus.assembly = none) :
    assemble (Character.mk true true lead) s = s.withAssembly lead none [] := by
  rw [assemble_lead _ rfl rfl, if_pos h]
  rfl

/-- The length follows it. -/
theorem assemble_length {d : Byte} (h : d.toNat ≤ 60) :
    assemble (Character.mk true false d) (s.withAssembly lead none [])
      = s.withAssembly lead (some d.toNat) [] :=
  (assemble_extend _ rfl rfl rfl).trans (extendMessage_length _ rfl h)

/-- Payload characters are taken one after the other as long as the length has room for them. -/
theorem foldl_assemble_payload {n : Nat} (p : List Byte) : ∀ done, done.length + p.length ≤ n →
    (p.map (Character.mk true false)).foldl (fun u ch => assemble ch u) (s.withAssembly lead (some n) done)
      = s.withAssembly lead (some n) (done ++ p) := by
  induction p with
  | nil => simp
  | cons d p ih =>
    intro done hroom
    rw [List.length_cons] at hroom
    have hfits : done.length < n := by omega
    have hnext : assemble (Character.mk true false d) (s.withAssembly lead (some n) done)
        = s.withAssembly lead (some n) (done ++ [d]) :=
      (assemble_extend _ rfl rfl rfl).trans (extendMessage_payload _ rfl hfits)
    rw [List.map_cons, List.foldl_cons, hnext, ih (done ++ [d]) (by simp; omega)]
    simp

/-- The right check character completes the message, which is read back by its kind, sender and payload. -/
theorem assemble_check_of_built {s : State} (kind : MsgKind) {sender : Nat} (payload : List Byte)
    (hsender : sender < 32) (hnone : s.bus.assembly = none) :
    assemble (Character.mk true false
        (crc8 (leadByte kind sender :: BitVec.ofNat 8 payload.length :: payload)))
        (s.withAssembly (leadByte kind sender) (some payload.length) payload)
      = keepMessage
          { kind := kind, sender := sender, payload := payload, straddle := s.bus.markSince } s := by
  obtain ⟨hkind, hnumber⟩ := leadByte_toNat kind hsender
  rw [assemble_check rfl rfl (Nat.le_refl payload.length) rfl rfl, completeMessage,
    dropAssembly_withAssembly _ hnone]
  simp only [Option.getD_some, ne_eq, not_true, if_false, hkind, hnumber, msgKindOf_eq_some_iff.2 rfl]

end Assembled

/-- What a station sends, another one reads: the lead begins the message, the length and the payload extend
it, and the check character completes it. -/
theorem foldl_assemble_message (kind : MsgKind) {sender : Nat} {payload : List Byte} {s : State}
    (hsender : sender < 32) (hlen : payload.length ≤ 60) (hnone : s.bus.assembly = none) :
    (messageCharacters (messageBytes kind sender payload)).foldl (fun u ch => assemble ch u) s
      = keepMessage
          { kind := kind, sender := sender, payload := payload, straddle := s.bus.markSince } s := by
  have hcount : (BitVec.ofNat 8 payload.length).toNat = payload.length := by
    rw [BitVec.toNat_ofNat, Nat.mod_eq_of_lt (by omega)]
  have hbytes : messageBytes kind sender payload = leadByte kind sender :: BitVec.ofNat 8 payload.length
      :: (payload ++ [crc8 (leadByte kind sender :: BitVec.ofNat 8 payload.length :: payload)]) := rfl
  rw [hbytes, messageCharacters_cons, List.map_cons, List.map_append, List.foldl_cons, List.foldl_cons,
    List.foldl_append, assemble_lead_of_none _ hnone, assemble_length _ _ (by rwa [hcount]), hcount,
    foldl_assemble_payload _ _ payload [] (by simp)]
  exact assemble_check_of_built kind payload hsender hnone

/-- Settles O36: the check character, the driver's bits, and the message read back. -/
theorem messageReadsBack : Obligations.MessageReadsBack := by
  unfold Obligations.MessageReadsBack
  refine ⟨fun shift hshift => ⟨rfl, fun bs b => ?check⟩, rfl, ?layout,
    fun s t => ⟨fun hst => ?lead, fun hst => ?disabled, ?sending⟩,
    fun kind sender payload s hsender hlen hnone => foldl_assemble_message kind hsender hlen hnone⟩
  case check =>
    have heq : shift = crcShift := funext fun r => (hshift r).trans (crcShift_eq r).symm
    rw [crc8_concat, crcByte_eq, heq]
  case layout =>
    rintro kind sender payload body rfl
    rfl
  case lead => simp only [State.drivenLevel, hst]
  case disabled => rcases hst with hst | hst | hst <;> simp only [State.drivenLevel, hst]
  case sending =>
    rintro i j b level hst hb hi hfrom hto rfl
    have hbit := (Character.mk true (j == 0) b).getLsbD_bits hi
    have hlead : (j == 0) = decide (j = 0) := rfl
    rw [hlead] at hbit ⊢
    exact ⟨(drivenLevel_of_sending hst hb hi hfrom hto).trans (congrArg some hbit), hbit⟩

end Sys2Proof.Machine
end

section
/-! PROOFS. An order at the head of the queue: which command takes it, the tests that settle it, and its
answer (R116, R177 to R179). -/

namespace Sys2Proof.Machine

/-! ### Which command takes an order (R178, R181) -/

theorem hasCode_iff {c : Nat} {o : Order} : hasCode c o = true ↔ o.code = c := beq_iff_eq

/-- A well-formed READ is taken by the command of its item. -/
theorem readsItem_iff {item : Nat} {o : Order} (hlen : o.args.length = 2) (hitem : byteAt o.args 0 ≤ 6) :
    readsItem item o = true ↔ o.code = 5 ∧ byteAt o.args 0 = item := by
  simp [readsItem, hlen, Nat.not_lt.2 hitem]

theorem unknownCode_iff {o : Order} : unknownCode o = true ↔ o.code < 1 ∨ 10 < o.code := by
  simp [unknownCode]

/-- What the command that takes an order does with one that names the station. -/
def carriedBy : Instr → Message → Order → State → State
  | .orderUnknown => carryUnknown
  | .level => settleOrder actLevel
  | .dark => settleOrder actDark
  | .light => settleOrder actLight
  | .pattern => settleOrder actPattern
  | .readStartRecord => settleOrder (actRead readStart)
  | .readCounters => settleOrder (actRead readCounterBlock)
  | .readPeerEntry => settleOrder actReadPeer
  | .readZone => settleOrder actReadZone
  | .readFaultRecord => settleOrder (actRead readFaults)
  | .readPhotometer => settleOrder (actRead readPhoto)
  | .readLevels => settleOrder (actRead readLevelItem)
  | .clear => settleOrder actClear
  | .store => settleOrder actStore
  | .restart => carryRestart
  | .sleep => settleOrder actSleep
  | .wake => settleOrder actWake
  | _ => fun _ _ s => s

section Taken

variable {c : Instr} {o : Order} (h : c.takesOrder o = true)

include h

/-- A command that takes orders runs as `withOrder` on those it takes. -/
theorem exec_of_takesOrder (s : State) :
    exec c s = .next (whenRunning (withOrder c.takesOrder (carriedBy c)) s) := by
  cases c with
  | orderUnknown | level | dark | light | pattern | readStartRecord | readCounters | readPeerEntry
  | readZone | readFaultRecord | readPhotometer | readLevels | clear | store | restart | sleep | wake => rfl
  | _ => exact absurd h Bool.false_ne_true

/-- Every command but ORDER_UNKNOWN takes orders of a known code. -/
theorem code_of_takesOrder (hc : c ≠ .orderUnknown) : 1 ≤ o.code ∧ o.code ≤ 10 := by
  have hcode : ∃ n, 1 ≤ n ∧ n ≤ 10 ∧ o.code = n := by
    cases c with
    | orderUnknown => exact absurd rfl hc
    | level | dark | light | pattern | clear | store | restart | sleep | wake =>
      exact ⟨_, by decide, by decide, hasCode_iff.1 h⟩
    | readStartRecord | readCounters | readPeerEntry | readZone | readFaultRecord | readPhotometer
    | readLevels => exact ⟨5, by decide, by decide, beq_iff_eq.1 (Bool.and_eq_true_iff.1 h).1⟩
    | _ => exact absurd h Bool.false_ne_true
  obtain ⟨n, hpos, hle, rfl⟩ := hcode
  exact ⟨hpos, hle⟩

/-- An order of an unknown code is answered UNKNOWN (R179). -/
theorem carriedBy_unknown (hcode : o.code < 1 ∨ 10 < o.code) (m : Message) (s : State) :
    carriedBy c m o s = answerOrder o .unknown [] s := by
  by_cases hc : c = .orderUnknown
  · subst hc
    rfl
  · have hknown := code_of_takesOrder h hc
    omega

/-- One of a known code and a wrong argument length is answered BAD_ARG, and nothing is carried out
(R179). -/
theorem carriedBy_badArg (hpos : 1 ≤ o.code) (hle : o.code ≤ 10)
    (hlen : o.args.length ≠ argumentBytes o.code) (m : Message) (s : State) :
    carriedBy c m o s = answerOrder o .badArg [] s := by
  have hsettle : ∀ act, settleOrder act m o s = answerOrder o .badArg [] s := fun act => by
    rw [settleOrder, if_neg hlen]
    rfl
  cases c with
  | orderUnknown =>
    have hunknown := unknownCode_iff.1 h
    omega
  | restart => exact if_neg hlen
  | level | dark | light | pattern | readStartRecord | readCounters | readPeerEntry | readZone
  | readFaultRecord | readPhotometer | readLevels | clear | store | sleep | wake => exact hsettle _
  | _ => exact absurd h Bool.false_ne_true

end Taken

/-! ### The head of the queue (R177, R179) -/

/-- The Console Agent finds the ORDER at the head, when it has none in hand and is not in START. -/
theorem orderAtHead_of_order {s : State} {m : Message} {rest : List Message}
    (hq : s.bus.rxQueue = m :: rest) (hm : m.kind = .order) (hst : s.life.state ≠ .start)
    (hhand : s.console.inHand = none) : s.orderAtHead = readOrder m.payload := by
  simp [State.orderAtHead, State.takesOrders, hq, hm, hst, hhand]

/-- In START, or with an order in hand, it finds none. -/
theorem orderAtHead_of_not_taking {s : State} (h : s.life.state = .start ∨ s.console.inHand ≠ none) :
    s.orderAtHead = none := by
  have htakes : s.takesOrders = false := by
    rcases h with h | h
    · simp [State.takesOrders, h]
    · simp [State.takesOrders, h]
  unfold State.orderAtHead
  split <;> simp [htakes]

/-- A command that finds no order of its own at the head leaves the queue alone. -/
theorem withOrder_of_no_order {s : State} {accepts : Order → Bool}
    (h : ∀ o, s.orderAtHead = some o → accepts o = false) (carry : Message → Order → State → State) :
    withOrder accepts carry s = s := by
  unfold withOrder
  unfold State.orderAtHead at h
  cases hq : s.bus.rxQueue with
  | nil => rfl
  | cons m rest =>
    rw [hq] at h
    by_cases hm : m.kind = .order ∧ s.takesOrders = true
    · cases ho : readOrder m.payload with
      | none => simp [hm, ho]
      | some o => simp [hm, ho, h o ((if_pos hm).trans ho)]
    · simp [hm]

/-- The order that a command takes is carried by it when it names the station, and dropped else (R179). -/
theorem exec_of_orderAtHead {c : Instr} {s : State} {o : Order} (hcalm : s.calm)
    (ho : s.orderAtHead = some o) (h : c.takesOrder o = true) : ∃ m, exec c s = .next (refreshTx
      (if (s.stn ^^^ o.target) &&& o.mask = 0 then carriedBy c m o (popQueue s) else popQueue s)) := by
  obtain ⟨m, -, -, -, -, hw⟩ := withOrder_of_head (carry := carriedBy c) ho h
  refine ⟨m, ?_⟩
  rw [exec_of_takesOrder h, whenRunning_of_calm hcalm, hw]
  simp only [Order.addresses, beq_iff_eq]

/-- An ORDER too short to be read leaves the queue and is counted (R178). -/
theorem dropShortOrder_of_short {s : State} {m : Message} {rest : List Message}
    (hq : s.bus.rxQueue = m :: rest) (hm : m.kind = .order) (hlen : m.payload.length < 5)
    (hst : s.life.state ≠ .start) (hhand : s.console.inHand = none) :
    dropShortOrder s = (popQueue s).count .discard := by
  simp [dropShortOrder, State.takesOrders, hq, hm, hlen, hst, hhand]

/-! ### The answer (R116, R179) -/

/-- Only an order to this one station, which has a number, is answered. -/
theorem Order.individual_iff {o : Order} {s : State} : o.individual s = true ↔ o.mask = 31 ∧ s.stn ≠ 0 := by
  simp [Order.individual]

theorem answerOrder_of_individual {o : Order} {s : State} (h : o.individual s = true) (r : OrderResult)
    (data : List Byte) : answerOrder o r data s
      = pushAnswer { serial := o.serial, code := o.code, result := r.code, bytes := data } s := if_pos h

/-- Settles O40: an order is found, taken by its command, settled by its tests and answered. -/
theorem orderIsTestedAndAnswered : Obligations.OrderIsTestedAndAnswered := by
  unfold Obligations.OrderIsTestedAndAnswered
  refine ⟨fun p => ⟨fun h => if_pos h, fun h => if_neg (Nat.not_lt.2 h)⟩, rfl, rfl,
    fun o c code h => ?codes, fun o c item hlen hitem h => ?items, fun s m rest => orderAtHead_of_order,
    fun s => orderAtHead_of_not_taking, fun c s hcalm ⟨o, h⟩ hnot => ?waits, ?tested,
    fun s m rest hcalm hq hm hlen hst hhand => ?short, fun o r data s => ⟨fun h => ?silent,
      fun hmask hstn => ⟨fun hroom => ?pushed, fun hfull => ?dropped⟩⟩⟩
  case codes =>
    simp only [List.mem_cons, Prod.mk.injEq, List.not_mem_nil, or_false] at h
    rcases h with ⟨rfl, rfl⟩ | ⟨rfl, rfl⟩ | ⟨rfl, rfl⟩ | ⟨rfl, rfl⟩ | ⟨rfl, rfl⟩ | ⟨rfl, rfl⟩
      | ⟨rfl, rfl⟩ | ⟨rfl, rfl⟩ | ⟨rfl, rfl⟩
    all_goals exact hasCode_iff
  case items =>
    simp only [List.mem_cons, Prod.mk.injEq, List.not_mem_nil, or_false] at h
    rcases h with ⟨rfl, rfl⟩ | ⟨rfl, rfl⟩ | ⟨rfl, rfl⟩ | ⟨rfl, rfl⟩ | ⟨rfl, rfl⟩ | ⟨rfl, rfl⟩
      | ⟨rfl, rfl⟩
    all_goals exact readsItem_iff hlen hitem
  case waits =>
    rw [exec_of_takesOrder h, whenRunning_of_calm hcalm, withOrder_of_no_order hnot]
  case tested =>
    rintro c s o _ hcalm ho h rfl
    obtain ⟨m, hrun⟩ := exec_of_orderAtHead hcalm ho h
    rw [hrun]
    refine ⟨fun hother => by rw [if_neg hother]; rfl, fun hown =>
      ⟨fun hcode => ?unknown, fun hpos hle hlen => ?badArg⟩⟩
    case unknown => rw [if_pos hown, carriedBy_unknown h hcode]; rfl
    case badArg => rw [if_pos hown, carriedBy_badArg h hpos hle hlen]; rfl
  case short =>
    have hrun : exec .orderTooShort s = .next (refreshTx (dropShortOrder s)) :=
      congrArg _ (whenRunning_of_calm hcalm _)
    rw [hrun, dropShortOrder_of_short hq hm hlen hst hhand, popQueue, hq]
    rfl
  case silent =>
    refine answerOrder_of_group (Bool.eq_false_iff.2 fun hind => ?_) r data
    obtain ⟨hmask, hstn⟩ := Order.individual_iff.1 hind
    exact h.elim (· hmask) hstn
  case pushed =>
    rw [answerOrder_of_individual (Order.individual_iff.2 ⟨hmask, hstn⟩), pushAnswer_of_room hroom]
    rfl
  case dropped =>
    rw [answerOrder_of_individual (Order.individual_iff.2 ⟨hmask, hstn⟩), pushAnswer_of_full hfull]
    rfl

end Sys2Proof.Machine
end

section
/-! PROOFS. The frame line and the frame timer: edges, expiries, the stuck line and its recovery, and the ends
of the assertion and of the pace pulse (R126 to R135, R140). -/

namespace Sys2Proof.Machine

/-! ### An edge -/

/-- In a calm state time runs on to the edge, the line takes its level, and the part has its part in it. -/
theorem lineEdge_of_calm {s : State} (h : s.calm) (t : Nat) (low : Bool) (f : State → State) :
    lineEdge t low f s = refreshTx (f ((advanceTo t s).setLine low)) :=
  (if_pos h.1).trans (atTime_of_calm h t _)

/-- A part that does not run notes the time and the level alone (assumption 18). -/
theorem lineEdge_of_not_running {s : State} (h : s.resetPhase ≠ .running) (t : Nat) (low : Bool)
    (f : State → State) : lineEdge t low f s = (s.setNow (max t s.now)).setLine low := if_neg h

/-- A falling edge that the part hears: in START it moves the level alone. -/
theorem exec_frameLineFall_of_calm {s : State} (h : s.calm) (t : Nat) :
    exec (.frameLineFall t) s = .next (refreshTx (
      if s.life.state = .start then (advanceTo t s).setLine true
      else takeFall ((advanceTo t s).setLine true))) := by
  have hlife : ((advanceTo t s).setLine true).life = s.life := by simp
  rw [← hlife]
  exact congrArg _ (lineEdge_of_calm h t true _)

/-- A rising edge that the part hears: in START it moves the level alone. -/
theorem exec_frameLineRise_of_calm {s : State} (h : s.calm) (t : Nat) :
    exec (.frameLineRise t) s = .next (refreshTx (
      if s.life.state = .start then (advanceTo t s).setLine false
      else takeRise ((advanceTo t s).setLine false))) := by
  have hlife : ((advanceTo t s).setLine false).life = s.life := by simp
  rw [← hlife]
  exact congrArg _ (lineEdge_of_calm h t false _)

/-- The window of R129 is 7/8 of the period: `earlyWindow` holds the eighths multiplied out. -/
theorem State.eight_mul_earlyWindow (s : State) : 8 * s.earlyWindow = 7 * s.periodNs := by
  simp only [State.earlyWindow, State.periodNs, Config.microsecond]
  omega

/-- A falling edge is a mark when the last one, if any, lies at least 7/8 x P back (R129). -/
theorem State.edgeAccepted_iff (s : State) : s.edgeAccepted = true ↔
    ∀ m ∈ s.timer.lastMark, 7 * s.periodNs ≤ 8 * (s.now - m) := by
  have hwindow : ∀ d, s.earlyWindow ≤ d ↔ 7 * s.periodNs ≤ 8 * d := fun d => by
    rw [← s.eight_mul_earlyWindow]
    omega
  unfold State.edgeAccepted
  cases s.timer.lastMark with
  | none => exact ⟨fun _ _ hm => (nomatch hm), fun _ => rfl⟩
  | some m =>
    simp only [Option.mem_def, Option.some.injEq, forall_eq', decide_eq_true_eq]
    exact hwindow _

/-- The own assertion is on before its end (R128). -/
theorem State.asserting_eq (s : State) :
    s.asserting = decide (∃ e ∈ s.timer.assertion, s.now < e) := by
  unfold State.asserting
  cases s.timer.assertion with
  | none => exact (decide_eq_false fun ⟨_, he, _⟩ => nomatch he).symm
  | some e => simp only [Option.mem_def, Option.some.injEq, exists_eq_left']

/-! ### What the Frame Timer does at an edge and at its expiry, by the line state -/

section LineState

variable {s : State}

theorem takeFall_of_stuck (h : s.timer.lineState = .stuck) :
    takeFall s = s.setTimer { s.timer with highSince := none } := by
  simp [takeFall, h]

/-- In NORMAL the low time runs from the edge, which is a mark or is counted as early. -/
theorem takeFall_of_normal (h : s.timer.lineState = .normal) : takeFall s =
    if s.edgeAccepted
      then frameMark (s.setTimer { s.timer with lowSince := some s.now, lowOwn := s.asserting })
      else (s.setTimer { s.timer with lowSince := some s.now, lowOwn := s.asserting }).count .early := by
  simp [takeFall, h]

theorem takeRise_of_stuck (h : s.timer.lineState = .stuck) :
    takeRise s = s.setTimer { s.timer with lowSince := none, highSince := some s.now } := by
  simp [takeRise, h]

theorem takeRise_of_normal (h : s.timer.lineState = .normal) :
    takeRise s = s.setTimer { s.timer with lowSince := none } := by
  simp [takeRise, h]

theorem takeExpiry_of_stuck (h : s.timer.lineState = .stuck) :
    takeExpiry s = frameMark (s.setTimer { s.timer with expiry := some (s.now + s.periodNs) }) := by
  simp [takeExpiry, h]

theorem takeExpiry_of_sleep (h : s.timer.lineState = .normal) (hsleep : s.life.state = .sleep) :
    takeExpiry s = s.setTimer { s.timer with expiry := some (s.now + s.periodNs) } := by
  simp [takeExpiry, h, hsleep]

theorem takeExpiry_of_awake (h : s.timer.lineState = .normal) (hawake : s.life.state ≠ .sleep) :
    takeExpiry s = s.setTimer { s.timer with
      expiry := some (s.now + s.periodNs), assertion := some (s.now + 4000) } := by
  simp [takeExpiry, h, hawake, Config.microsecond, State.setTimer]

end LineState

/-- A mark's own work on the timer is all that a mark does to it (R130). -/
theorem frameMark_timer (s : State) : (frameMark s).timer = (timerAtMark s).timer := by
  simp [frameMark]

/-! ### The times that end -/

/-- A time whose end moves the Frame Timer alone: it does so at its deadline. -/
theorem atDeadline_of_timerStep {s : State} {deadline : State → Option Nat} {e : Nat} (h : s.calm)
    (hd : deadline s = some e) (step : FrameTimer → FrameTimer) :
    atDeadline deadline (fun s => s.setTimer (step s.timer)) s
      = refreshTx { advanceTo e s with timer := step s.timer } := by
  have htimer : (advanceTo e s).timer = s.timer := by simp
  rw [atDeadline_of_calm h hd, htimer]
  rfl

theorem timerDeadline_of_running {s : State} (h : s.life.state ≠ .start) :
    s.timerDeadline = s.timer.expiry := if_neg h

theorem stuckDeadline_of_low {s : State} {since : Nat} (hst : s.life.state ≠ .start)
    (hn : s.timer.lineState = .normal) (hlow : s.timer.lowSince = some since) :
    s.stuckDeadline = some (since + 100001) := by
  simp [State.stuckDeadline, hst, hn, hlow, Config.microsecond]

/-- A line that is STUCK does not become so again (R133). -/
theorem stuckDeadline_of_stuck {s : State} (h : s.timer.lineState = .stuck) : s.stuckDeadline = none := by
  simp [State.stuckDeadline, h]

theorem recoveryDeadline_of_high {s : State} {since : Nat} (hst : s.timer.lineState = .stuck)
    (hhigh : s.timer.highSince = some since) : s.recoveryDeadline = some (since + s.periodNs) := by
  simp [State.recoveryDeadline, hst, hhigh]

/-- The expiry of a timer that runs. -/
theorem exec_frameTimerExpiry_of_expiry {s : State} {e : Nat} (h : s.calm) (hst : s.life.state ≠ .start)
    (he : s.timer.expiry = some e) :
    exec .frameTimerExpiry s = .next (refreshTx (takeExpiry (advanceTo e s))) :=
  congrArg _ (atDeadline_of_calm h ((timerDeadline_of_running hst).trans he) _)

/-- A low line past its time becomes STUCK (R132). -/
theorem exec_lineStuck_of_low {s : State} {since : Nat} (h : s.calm) (hst : s.life.state ≠ .start)
    (hn : s.timer.lineState = .normal) (hlow : s.timer.lowSince = some since) :
    exec .lineStuck s = .next (refreshTx (becomeStuck (advanceTo (since + 100001) s))) :=
  congrArg _ (atDeadline_of_calm h (stuckDeadline_of_low hst hn hlow) _)

/-- In STUCK a long low is nothing new (R133). -/
theorem exec_lineStuck_of_stuck {s : State} (h : s.calm) (hst : s.timer.lineState = .stuck) :
    exec .lineStuck s = .next (refreshTx s) :=
  congrArg _ (atDeadline_of_none h (stuckDeadline_of_stuck hst) _)

/-! ### The statements -/

/-- Settles O16: by the part that runs, the station state, and the window since the last mark. -/
theorem fallingEdgeIsMarkOrEarly : Obligations.FallingEdgeIsMarkOrEarly := by
  unfold Obligations.FallingEdgeIsMarkOrEarly
  refine ⟨fun t s h => congrArg _ (lineEdge_of_not_running h t true _),
    fun t s hcalm => ⟨fun hst => ?start, fun hst hn => ?normal⟩⟩
  all_goals
    rw [exec_frameLineFall_of_calm hcalm]
    obtain ⟨e, sc, cs, hadv⟩ := advanceTo_eq t s
  case start => rw [if_pos hst, hadv]; rfl
  case normal =>
    rintro s' rfl
    rw [if_neg hst, takeFall_of_normal (by simpa using hn)]
    have haccepted : ((advanceTo t s).setLine true).edgeAccepted = true ↔
        ∀ m ∈ s.timer.lastMark, 7 * s.periodNs ≤ 8 * (max t s.now - m) := by
      rw [State.edgeAccepted_iff, hadv]
      rfl
    refine ⟨fun hmark => ?mark, fun hearly => ?early⟩
    case mark =>
      rw [if_pos (haccepted.2 hmark), State.asserting_eq, hadv]
      rfl
    case early =>
      rw [if_neg (mt haccepted.1 hearly), State.asserting_eq, hadv]
      rfl

/-- Settles O17: each of the four commands in STUCK, and then the entry to STUCK followed by a second long
low, which finds no time running. -/
theorem stuckLineIsNotWatchedForEdges : Obligations.StuckLineIsNotWatchedForEdges := by
  unfold Obligations.StuckLineIsNotWatchedForEdges
  refine fun s hcalm hst => ⟨fun hstuck => ⟨fun t => ?fall, fun t => ?rise, ?expiry,
    exec_lineStuck_of_stuck hcalm hstuck⟩, fun since hn hlow => ?entry⟩
  case fall =>
    obtain ⟨e, sc, cs, hadv⟩ := advanceTo_eq t s
    rw [exec_frameLineFall_of_calm hcalm, if_neg hst, takeFall_of_stuck (by simpa using hstuck), hadv]
    rfl
  case rise =>
    obtain ⟨e, sc, cs, hadv⟩ := advanceTo_eq t s
    rw [exec_frameLineRise_of_calm hcalm, if_neg hst, takeRise_of_stuck (by simpa using hstuck), hadv]
    rfl
  case expiry =>
    cases he : s.timer.expiry with
    | none =>
      have hnone : exec .frameTimerExpiry s = .next (refreshTx s) :=
        congrArg _ (atDeadline_of_none hcalm ((timerDeadline_of_running hst).trans he) _)
      exact ⟨_, hnone, by simp, by simpa using hstuck⟩
    | some e =>
      refine ⟨_, exec_frameTimerExpiry_of_expiry hcalm hst he, ?_⟩
      rw [takeExpiry_of_stuck (by simpa using hstuck)]
      simp [frameMark_timer, hstuck]
  case entry =>
    have hentered : (refreshTx (becomeStuck (advanceTo (since + 100001) s))).timer.lineState = .stuck := by
      simp
    have hstill : (refreshTx (becomeStuck (advanceTo (since + 100001) s))).calm := by
      simpa [State.calm, State.restartDue] using hcalm
    exact ⟨_, exec_lineStuck_of_low hcalm hst hn hlow, hentered, by simp [becomeStuck],
      exec_lineStuck_of_stuck hstill hentered⟩

/-- Settles O18: the timer restarts, and the rest is by the line state and the station state. -/
theorem timerExpiryAssertsOrMarks : Obligations.TimerExpiryAssertsOrMarks := by
  unfold Obligations.TimerExpiryAssertsOrMarks
  rintro s e hcalm hst he s' rfl
  rw [exec_frameTimerExpiry_of_expiry hcalm hst he]
  obtain ⟨en, sc, cs, hadv⟩ := advanceTo_eq e s
  refine ⟨fun hstuck => ?stuck, fun hn hsleep => ?sleep, fun hn hawake => ?awake⟩
  case stuck => rw [takeExpiry_of_stuck (by simpa using hstuck), hadv]; rfl
  case sleep => rw [takeExpiry_of_sleep (by simpa using hn) (by simpa using hsleep), hadv]; rfl
  case awake => rw [takeExpiry_of_awake (by simpa using hn) (by simpa using hawake), hadv]; rfl

/-- Settles O19: the rising edge by the station state, and each running time at its own deadline. -/
theorem lineTimesRunToTheirEnds : Obligations.LineTimesRunToTheirEnds := by
  unfold Obligations.LineTimesRunToTheirEnds
  refine ⟨fun t s h => congrArg _ (lineEdge_of_not_running h t false _), fun t s hcalm hst => ?start,
    fun s hcalm hst => ⟨fun hn t => ?rise, fun since hn hlow => ?stuck,
      fun since hstuck hhigh => ?recovery, fun e he => ?assertion, fun e he => ?pace⟩⟩
  case start =>
    obtain ⟨e, sc, cs, hadv⟩ := advanceTo_eq t s
    rw [exec_frameLineRise_of_calm hcalm, if_pos hst, hadv]
    rfl
  case rise =>
    obtain ⟨e, sc, cs, hadv⟩ := advanceTo_eq t s
    rw [exec_frameLineRise_of_calm hcalm, if_neg hst, takeRise_of_normal (by simpa using hn), hadv]
    rfl
  case stuck =>
    obtain ⟨e, sc, cs, hadv⟩ := advanceTo_eq (since + 100001) s
    rw [exec_lineStuck_of_low hcalm hst hn hlow, hadv]
    rfl
  case recovery =>
    exact congrArg _ (atDeadline_of_timerStep hcalm (recoveryDeadline_of_high hstuck hhigh)
      fun v => { v with lineState := .normal, highSince := none })
  case assertion =>
    exact congrArg _ (atDeadline_of_timerStep (deadline := (·.timer.assertion)) hcalm he
      fun v => { v with assertion := none })
  case pace =>
    exact congrArg _ (atDeadline_of_timerStep (deadline := (·.timer.pace)) hcalm he
      fun v => { v with pace := none })

end Sys2Proof.Machine
end

section
/-! PROOFS. The three frame buffers as a table: one record changed, the READY record picked, a line written to
its row, and the agreement of the records with the frame in progress (R142 to R147). -/

namespace Sys2Proof.Machine

/-! ### One record changed -/

theorem modifyAt_eq_modify {α : Type} (g : α → α) (i : Nat) (l : List α) : modifyAt g i l = l.modify i g := by
  induction l generalizing i with
  | nil => cases i <;> rfl
  | cons a l ih =>
    cases i with
    | zero => rfl
    | succ i => simp [modifyAt, ih]

/-- The record changed is the one of the index; the others stay. -/
theorem getElem?_modifyAt {α : Type} (g : α → α) (i : Nat) (l : List α) (j : Nat) :
    (modifyAt g i l)[j]? = if j = i then l[j]?.map g else l[j]? := by
  rw [modifyAt_eq_modify, List.getElem?_modify]
  by_cases h : j = i
  · simp [h]
  · simp [h, Ne.symm h]

@[simp] theorem length_modifyAt {α : Type} (g : α → α) (i : Nat) (l : List α) :
    (modifyAt g i l).length = l.length := by
  rw [modifyAt_eq_modify, List.length_modify]

/-- A buffer read after one record of the table has changed. -/
theorem State.buffer_of_modifyAt {s u : State} {g : FrameBuffer → FrameBuffer} {i j : Nat}
    (hu : u.buffers = modifyAt g i s.buffers) (hj : j < s.buffers.length) :
    u.buffer j = if j = i then g (s.buffer j) else s.buffer j := by
  simp only [State.buffer, hu, List.getD_eq_getElem?_getD, getElem?_modifyAt, List.getElem?_eq_getElem hj]
  split <;> rfl

/-- An index in range reads the record there. -/
theorem State.getElem_buffers {s : State} {j : Nat} (hj : j < s.buffers.length) :
    s.buffers[j] = s.buffer j := by
  simp [State.buffer, List.getD_eq_getElem?_getD, hj]

theorem State.getElem?_buffers {s : State} {j : Nat} (hj : j < s.buffers.length) :
    s.buffers[j]? = some (s.buffer j) :=
  (List.getElem?_eq_getElem hj).trans (congrArg some (State.getElem_buffers hj))

/-- A record in the table counts among those of its state. -/
theorem buffersIn_pos {bs : List FrameBuffer} {i : Nat} {b : FrameBuffer} (hb : bs[i]? = some b) :
    1 ≤ buffersIn b.state bs :=
  List.countP_pos_iff.2 ⟨b, List.mem_of_getElem? hb, beq_self_eq_true _⟩

/-- A changed record leaves the count of its old state and joins that of its new one. -/
theorem buffersIn_modifyAt {bs : List FrameBuffer} {i : Nat} {b : FrameBuffer} (hb : bs[i]? = some b)
    (g : FrameBuffer → FrameBuffer) (st : BufferState) :
    buffersIn st (modifyAt g i bs) + (if b.state = st then 1 else 0)
      = buffersIn st bs + if (g b).state = st then 1 else 0 := by
  induction bs generalizing i with
  | nil => simp at hb
  | cons a bs ih =>
    cases i with
    | zero =>
      obtain rfl : a = b := by simpa using hb
      simp only [modifyAt, buffersIn, List.countP_cons, beq_iff_eq]
      omega
    | succ i =>
      have htail := ih (by simpa using hb)
      simp only [modifyAt, buffersIn, List.countP_cons] at htail ⊢
      omega

/-- A count keeps its bound when the changed record was of that state already, or there is room for it. -/
theorem buffersIn_modifyAt_le {bs : List FrameBuffer} {i n : Nat} {b : FrameBuffer} (hb : bs[i]? = some b)
    {g : FrameBuffer → FrameBuffer} {st : BufferState} (hn : buffersIn st bs ≤ n)
    (hnew : (g b).state = st → b.state = st ∨ buffersIn st bs < n) :
    buffersIn st (modifyAt g i bs) ≤ n := by
  have hcount := buffersIn_modifyAt hb g st
  by_cases hg : (g b).state = st
  · rw [if_pos hg] at hcount
    rcases hnew hg with hst | hroom
    · rw [if_pos hst] at hcount
      omega
    · omega
  · rw [if_neg hg] at hcount
    omega

/-! ### The READY record picked (R143, R145, R147) -/

/-- What is picked is a READY record, by its index and its sequence. -/
theorem pickReady_index {better : FrameNo → FrameNo → Bool} {bs : List FrameBuffer} {k i : Nat} {q : FrameNo}
    (h : pickReady better bs k = some (i, q)) :
    ∃ n b, i = k + n ∧ bs[n]? = some b ∧ b.state = .ready ∧ b.sequence = q := by
  induction bs generalizing k with
  | nil => simp [pickReady] at h
  | cons a bs ih =>
    have hhead : a.state = .ready → (k, a.sequence) = (i, q) →
        ∃ n b, i = k + n ∧ (a :: bs)[n]? = some b ∧ b.state = .ready ∧ b.sequence = q := by
      rintro hr ⟨⟩
      exact ⟨0, a, rfl, rfl, hr, rfl⟩
    cases htail : pickReady better bs (k + 1) with
    | none =>
      simp only [pickReady, htail, Option.ite_none_right_eq_some, Option.some.injEq] at h
      exact hhead h.1 h.2
    | some jr =>
      simp only [pickReady, htail] at h
      split at h <;> rw [Option.some.injEq] at h
      · rename_i hr
        exact hhead hr.1 h
      · obtain ⟨n, b, hn, hb, hr, hq⟩ := ih (htail.trans (congrArg some h))
        exact ⟨n + 1, b, by omega, by simpa using hb, hr, hq⟩

theorem picked_index {better : FrameNo → FrameNo → Bool} {bs : List FrameBuffer} {i : Nat}
    (h : (pickReady better bs 0).map (·.1) = some i) : ∃ b, bs[i]? = some b ∧ b.state = .ready := by
  obtain ⟨⟨j, q⟩, hpick, rfl⟩ := Option.map_eq_some_iff.1 h
  obtain ⟨n, b, hn, hb, hr, -⟩ := pickReady_index hpick
  exact ⟨b, by simpa [hn] using hb, hr⟩

theorem newestReady_index {bs : List FrameBuffer} {i : Nat} (h : newestReady bs = some i) :
    ∃ b, bs[i]? = some b ∧ b.state = .ready := picked_index h

theorem oldestReady_index {bs : List FrameBuffer} {i : Nat} (h : oldestReady bs = some i) :
    ∃ b, bs[i]? = some b ∧ b.state = .ready := picked_index h

/-- The record with its sequence negated: of two such the older is ahead. -/
def FrameBuffer.negated (b : FrameBuffer) : FrameBuffer := { b with sequence := -b.sequence }

theorem ahead_neg (a b : FrameNo) : ahead (-a) (-b) = ahead b a := by
  rw [ahead, show -a - -b = b - a by bv_omega, ahead]

/-- The older record of a table is picked where the newest of the negated table is. -/
theorem pickReady_negated (bs : List FrameBuffer) (k : Nat) :
    pickReady ahead (bs.map .negated) k
      = (pickReady (fun a b => ahead b a) bs k).map fun p => (p.1, -p.2) := by
  induction bs generalizing k with
  | nil => rfl
  | cons a bs ih =>
    simp only [List.map_cons, pickReady, ih (k + 1)]
    cases pickReady (fun a b => ahead b a) bs (k + 1) with
    | none => by_cases hr : a.state = .ready <;> simp [FrameBuffer.negated, hr]
    | some jq =>
      by_cases hr : a.state = .ready ∧ ahead a.sequence jq.2 = false <;>
        simp [FrameBuffer.negated, ahead_neg, hr]

/-- With two READY records at most, a third index finds none. -/
theorem eq_or_eq_of_two_ready {bs : List FrameBuffer} {i j n : Nat} {b c d : FrameBuffer} (hij : j ≠ i)
    (hi : bs[i]? = some b) (hj : bs[j]? = some c) (hn : bs[n]? = some d) (hb : b.state = .ready)
    (hc : c.state = .ready) (hd : d.state = .ready) (htwo : buffersIn .ready bs ≤ 2) : n = i ∨ n = j := by
  refine Decidable.byContradiction fun hne => ?_
  rw [not_or] at hne
  have hfirst := buffersIn_modifyAt hi (fun b => { b with state := .free }) .ready
  have hsecond := buffersIn_modifyAt (bs := modifyAt (fun b => { b with state := .free }) i bs)
    (by rw [getElem?_modifyAt, if_neg hij, hj]) (fun b => { b with state := .free }) .ready
  have hthird := buffersIn_pos (i := n) (b := d)
    (bs := modifyAt (fun b => { b with state := .free }) j
      (modifyAt (fun b => { b with state := .free }) i bs))
    (by rw [getElem?_modifyAt, if_neg hne.2, getElem?_modifyAt, if_neg hne.1, hn])
  simp only [hb, hc, hd, if_true, reduceCtorEq, if_false] at hfirst hsecond hthird
  omega

/-- Of two READY records and no more, the one that the other is ahead of is the older. -/
theorem oldestReady_of_ahead {bs : List FrameBuffer} {i j : Nat} {b c : FrameBuffer} (hi : bs[i]? = some b)
    (hj : bs[j]? = some c) (hb : b.state = .ready) (hc : c.state = .ready)
    (hahead : ahead c.sequence b.sequence = true) (htwo : buffersIn .ready bs ≤ 2) :
    oldestReady bs = some i := by
  have hij : j ≠ i := by
    rintro rfl
    obtain rfl : b = c := Option.some.inj (hi.symm.trans hj)
    simp [ahead_asymm hahead] at hahead
  have hpick : pickReady ahead (bs.map .negated) 0 = some (0 + i, -b.sequence) := by
    refine pickReady_newest (b := b.negated) (by simp [hi]) hb fun n d hmap hd hne => ?_
    rw [List.getElem?_map, Option.map_eq_some_iff] at hmap
    obtain ⟨d, hn, rfl⟩ := hmap
    obtain rfl := (eq_or_eq_of_two_ready hij hi hj hn hb hc hd htwo).resolve_left hne
    obtain rfl : c = d := Option.some.inj (hj.symm.trans hn)
    exact (ahead_neg _ _).trans hahead
  rw [pickReady_negated, Option.map_eq_some_iff] at hpick
  obtain ⟨p, hp, hpi⟩ := hpick
  simp only [Prod.mk.injEq] at hpi
  rw [oldestReady, hp, Option.map_some, hpi.1, Nat.zero_add]

/-! ### A line written to its row (R144) -/

/-- Rows listed in rising order (R146). -/
def RowsRise (rows : List (Nat × List Pixel)) : Prop := (rows.map (·.1)).Pairwise (· < ·)

theorem rowsRise_cons {r : Nat} {ps : List Pixel} {rest : List (Nat × List Pixel)} :
    RowsRise ((r, ps) :: rest) ↔ (∀ p ∈ rest, r < p.1) ∧ RowsRise rest := by
  simp [RowsRise, List.pairwise_cons]

/-- A row above those listed holds nothing. -/
theorem rowOf_eq_nil {rows : List (Nat × List Pixel)} {k : Nat} (h : ∀ p ∈ rows, k < p.1) :
    rowOf rows k = [] := by
  induction rows with
  | nil => rfl
  | cons p rest ih =>
    obtain ⟨hp, hrest⟩ := List.forall_mem_cons.1 h
    rw [rowOf, if_neg (by omega), ih hrest]

/-- A row written holds the pixels, and beyond them what it held; every other row stays. -/
theorem rowOf_writeRow {rows : List (Nat × List Pixel)} (h : RowsRise rows) (k : Nat) (ps : List Pixel)
    (row : Nat) : rowOf (writeRow rows k ps) row
      = if row = k then ps ++ (rowOf rows k).drop ps.length else rowOf rows row := by
  induction rows with
  | nil => cases ps <;> simp [writeRow, rowOf, eq_comm]
  | cons p rest ih =>
    obtain ⟨r, old⟩ := p
    obtain ⟨hrest, hrise⟩ := rowsRise_cons.1 h
    unfold writeRow
    split
    · rename_i hk
      have hnil : rowOf ((r, old) :: rest) k = [] := rowOf_eq_nil fun p hp => by
        rcases List.mem_cons.1 hp with rfl | hp
        · exact hk
        · have := hrest p hp; omega
      cases ps with
      | nil => by_cases hrow : row = k <;> simp [hrow, hnil]
      | cons a ps =>
        by_cases hrow : row = k
        · rw [hnil, hrow]
          simp [rowOf]
        · simp [hrow, rowOf, Ne.symm hrow]
    split
    · rename_i hk
      subst hk
      by_cases hrow : row = k
      · simp [hrow, rowOf]
      · simp [hrow, rowOf, Ne.symm hrow]
    · rename_i hlt hne
      simp only [rowOf, ih hrise, if_neg (Ne.symm hne)]
      by_cases hrow : row = k
      · simp [hrow, Ne.symm hne]
      · simp [hrow]

/-- What lies below the row written and below those listed lies below all. -/
theorem lt_of_mem_writeRow {rows : List (Nat × List Pixel)} {k m : Nat} (hk : m < k)
    (h : ∀ p ∈ rows, m < p.1) (ps : List Pixel) : ∀ p ∈ writeRow rows k ps, m < p.1 := by
  induction rows with
  | nil => cases ps <;> simp [writeRow, hk]
  | cons p rest ih =>
    obtain ⟨hp, hrest⟩ := List.forall_mem_cons.1 h
    unfold writeRow
    split
    · split
      · exact h
      · exact List.forall_mem_cons.2 ⟨hk, h⟩
    split
    · exact List.forall_mem_cons.2 ⟨hp, hrest⟩
    · exact List.forall_mem_cons.2 ⟨hp, ih hrest⟩

/-- The rows stay listed in rising order (R146). -/
theorem RowsRise.writeRow {rows : List (Nat × List Pixel)} (h : RowsRise rows) (k : Nat) (ps : List Pixel) :
    RowsRise (writeRow rows k ps) := by
  induction rows with
  | nil => cases ps <;> simp [Machine.writeRow, RowsRise]
  | cons p rest ih =>
    obtain ⟨r, old⟩ := p
    obtain ⟨hrest, hrise⟩ := rowsRise_cons.1 h
    unfold Machine.writeRow
    split
    · rename_i hk
      split
      · exact h
      · exact rowsRise_cons.2 ⟨List.forall_mem_cons.2 ⟨hk, fun p hp => Nat.lt_trans hk (hrest p hp)⟩, h⟩
    split
    · exact rowsRise_cons.2 ⟨hrest, hrise⟩
    · exact rowsRise_cons.2 ⟨lt_of_mem_writeRow (by omega) hrest ps, ih hrise⟩

end Sys2Proof.Machine
end

section
/-! PROOFS. The buffers agree with the frame in progress (R142, R146): the agreement as a matter of the table
and of the buffer that the frame has, and what the link, the mark and a reset make of it. -/

namespace Sys2Proof.Machine

/-! ### The agreement -/

/-- The buffer of the frame in progress, when there is one (R142). -/
def InputPort.owner (p : InputPort) : Option Nat := p.frame.map (·.buffer)

/-- The buffer table agrees with the buffer of the frame in progress: FILLING is that one and no other
(R142, R146). -/
structure TableAgrees (bs : List FrameBuffer) (owner : Option Nat) : Prop where
  three : bs.length = 3
  filling : buffersIn .filling bs = if owner.isSome then 1 else 0
  shown : buffersIn .shown bs ≤ 1
  ready : buffersIn .ready bs ≤ 2
  owned : ∀ i ∈ owner, ∃ b, bs[i]? = some b ∧ b.state = .filling
  rows : ∀ b ∈ bs, RowsRise b.rows

theorem buffersAgree_iff {s : State} : BuffersAgree s ↔ TableAgrees s.buffers s.input.owner := by
  constructor
  · rintro ⟨hlen, hfilling, hshown, hready, hnone, hframe, hrows⟩
    refine ⟨hlen, ?_, hshown, hready, fun i hi => ?_, hrows⟩
    · cases hf : s.input.frame with
      | none => simp [InputPort.owner, hf, hnone hf]
      | some f =>
        obtain ⟨hlt, hst⟩ := hframe f hf
        have hpos := buffersIn_pos (State.getElem?_buffers (hlen ▸ hlt))
        rw [hst] at hpos
        simp only [InputPort.owner, hf, Option.map_some, Option.isSome_some, if_true]
        omega
    · obtain ⟨f, hf, rfl⟩ := Option.map_eq_some_iff.1 hi
      obtain ⟨hlt, hst⟩ := hframe f hf
      exact ⟨_, State.getElem?_buffers (hlen ▸ hlt), hst⟩
  · rintro ⟨hlen, hfilling, hshown, hready, howned, hrows⟩
    refine ⟨hlen, ?_, hshown, hready, fun hf => ?_, fun f hf => ?_, hrows⟩
    · rw [hfilling]
      split <;> decide
    · simpa [InputPort.owner, hf] using hfilling
    · obtain ⟨b, hb, hst⟩ := howned f.buffer (Option.map_eq_some_iff.2 ⟨f, hf, rfl⟩)
      have hlt := (List.getElem?_eq_some_iff.1 hb).1
      rw [State.getElem?_buffers hlt, Option.some.injEq] at hb
      exact ⟨hlen ▸ hlt, hb ▸ hst⟩

section Table

variable {bs : List FrameBuffer} {owner : Option Nat} {i : Nat} {b : FrameBuffer}

theorem TableAgrees.filling_of_owned (h : TableAgrees bs (some i)) (hb : bs[i]? = some b) :
    b.state = .filling := by
  obtain ⟨c, hc, hst⟩ := h.owned i rfl
  obtain rfl : b = c := Option.some.inj (hb.symm.trans hc)
  exact hst

/-- A record that is not FILLING is not the frame's. -/
theorem TableAgrees.ne_of_owned (h : TableAgrees bs owner) (hb : bs[i]? = some b)
    (hst : b.state ≠ .filling) {j : Nat} (hj : j ∈ owner) : j ≠ i := by
  rintro rfl
  obtain rfl : owner = some j := hj
  exact hst (h.filling_of_owned hb)

/-- One record changes. The count of FILLING records follows the frame in progress, a record newly SHOWN is the
only one, and one newly READY finds at most one other. -/
theorem TableAgrees.modifyAt {owner' : Option Nat} {g : FrameBuffer → FrameBuffer}
    (h : TableAgrees bs owner) (hb : bs[i]? = some b) (hrows : RowsRise (g b).rows)
    (hfilling : (if owner'.isSome then 1 else 0) + (if b.state = .filling then 1 else 0)
      = (if owner.isSome then 1 else 0) + if (g b).state = .filling then 1 else 0)
    (hshown : (g b).state = .shown → b.state = .shown ∨ buffersIn .shown bs < 1)
    (hready : (g b).state = .ready → b.state = .ready ∨ buffersIn .ready bs < 2)
    (howned : ∀ j ∈ owner', if j = i then (g b).state = .filling else j ∈ owner) :
    TableAgrees (modifyAt g i bs) owner' := by
  obtain ⟨hlen, hfill, hsh, hrd, hown, hrise⟩ := h
  refine ⟨by simpa using hlen, ?_, buffersIn_modifyAt_le hb hsh hshown, buffersIn_modifyAt_le hb hrd hready,
    fun j hj => ?_, fun c hc => ?_⟩
  · have hcount := buffersIn_modifyAt hb g .filling
    omega
  · have hst := howned j hj
    rw [getElem?_modifyAt]
    split at hst
    · rename_i hji
      exact ⟨g b, by simp [hji, hb], hst⟩
    · rename_i hji
      obtain ⟨c, hc, hcst⟩ := hown j hst
      exact ⟨c, by rw [if_neg hji, hc], hcst⟩
  · obtain ⟨j, hj⟩ := List.mem_iff_getElem?.1 hc
    rw [getElem?_modifyAt] at hj
    split at hj
    · rename_i hji
      rw [hji, hb, Option.map_some, Option.some.injEq] at hj
      exact hj ▸ hrows
    · exact hrise c (List.mem_of_getElem? hj)

/-- A record that is given to a new frame: that of the frame in progress, or any other while there is none
(R143). -/
theorem TableAgrees.give (h : TableAgrees bs owner) (hb : bs[i]? = some b)
    (ho : owner = none ∨ owner = some i) (q : FrameNo) :
    TableAgrees (Machine.modifyAt (fun b => { b with state := .filling, sequence := q }) i bs) (some i) := by
  have hrise := h.rows b (List.mem_of_getElem? hb)
  refine h.modifyAt hb hrise ?_ (by simp) (by simp) (by simp [eq_comm])
  rcases ho with rfl | rfl
  · have hnot : b.state ≠ .filling := fun hst => by
      have hpos := buffersIn_pos hb
      rw [hst, h.filling] at hpos
      simp at hpos
    simp [hnot]
  · simp [h.filling_of_owned hb]

/-- The frame in progress ends: its record is FREE, or READY beside at most one other (R145). -/
theorem TableAgrees.finish {g : FrameBuffer → FrameBuffer} (h : TableAgrees bs (some i))
    (hrows : ∀ b, (g b).rows = b.rows)
    (hstate : (∀ b, (g b).state = .free) ∨ (∀ b, (g b).state = .ready) ∧ buffersIn .ready bs ≤ 1) :
    TableAgrees (Machine.modifyAt g i bs) none := by
  obtain ⟨b, hb, hst⟩ := h.owned i rfl
  have hrise := h.rows b (List.mem_of_getElem? hb)
  rw [← hrows] at hrise
  rcases hstate with hfree | ⟨hready, hone⟩
  · exact h.modifyAt hb hrise (by simp [hst, hfree]) (by simp [hfree]) (by simp [hfree]) (by simp)
  · exact h.modifyAt hb hrise (by simp [hst, hready]) (by simp [hready]) (fun _ => .inr (Nat.lt_succ_of_le hone)) (by simp)

/-- A READY record is given up (R145, R147). -/
theorem TableAgrees.giveUp (h : TableAgrees bs owner) (hb : bs[i]? = some b) (hr : b.state = .ready) :
    TableAgrees (Machine.modifyAt (fun b => { b with state := .free }) i bs) owner := by
  refine h.modifyAt hb (h.rows b (List.mem_of_getElem? hb)) (by simp [hr]) (by simp) (by simp) fun j hj => ?_
  rwa [if_neg (h.ne_of_owned hb (by simp [hr]) hj)]

/-- A line is written into a record of rising rows (R144). -/
theorem TableAgrees.write (h : TableAgrees bs (some i)) (k : Nat) (ps : List Pixel) :
    TableAgrees (Machine.modifyAt (fun b => { b with rows := writeRow b.rows k ps }) i bs) (some i) := by
  obtain ⟨b, hb, hst⟩ := h.owned i rfl
  exact h.modifyAt hb ((h.rows b (List.mem_of_getElem? hb)).writeRow k ps) rfl (by simp [hst])
    (by simp [hst]) (by simp [hst])

/-- Every reset frees the three records; what is written in them stays (R146). -/
theorem TableAgrees.reset (h : TableAgrees bs owner) : TableAgrees (resetBuffers bs) none := by
  obtain ⟨hlen, -, -, -, -, hrise⟩ := h
  have hfree : ∀ st ≠ .free, buffersIn st (resetBuffers bs) = 0 := fun st hst => by
    simp [buffersIn, resetBuffers, List.countP_eq_zero, Ne.symm hst]
  exact ⟨by simp [resetBuffers, hlen], hfree _ (by decide), by simp [hfree], by simp [hfree], by simp,
    by simpa [resetBuffers] using hrise⟩

/-! ### The Presenter's choice (R147) -/

/-- A record that the Presenter does not show: one SHOWN or READY is given up. -/
def FrameBuffer.givenUp (b : FrameBuffer) : FrameBuffer :=
  if b.state = .shown ∨ b.state = .ready then { b with state := .free } else b

theorem FrameBuffer.givenUp_state (b : FrameBuffer) :
    b.givenUp.state = if b.state = .filling then .filling else .free := by
  unfold givenUp
  cases hst : b.state <;> simp [hst]

theorem FrameBuffer.givenUp_rows (b : FrameBuffer) : b.givenUp.rows = b.rows := by
  unfold givenUp
  split <;> rfl

theorem FrameBuffer.chosen_self (b : FrameBuffer) (n : Nat) :
    b.chosen n n = { b.givenUp with state := .shown } := by
  simp only [chosen, givenUp, if_true]
  split <;> rfl

theorem FrameBuffer.chosen_of_ne {n j : Nat} (h : j ≠ n) (b : FrameBuffer) : b.chosen n j = b.givenUp := by
  simp only [chosen, givenUp, if_neg h]
  cases hst : b.state <;> simp

/-- The choice gives up every record and then shows the chosen one. -/
theorem chosen_eq_modifyAt (bs : List FrameBuffer) (n : Nat) :
    (bs.zipIdx.map fun p => p.1.chosen n p.2)
      = Machine.modifyAt (fun b => { b with state := .shown }) n (bs.map .givenUp) := by
  refine List.ext_getElem? fun j => ?_
  rw [getElem?_modifyAt]
  by_cases hj : j = n
  · cases hb : bs[j]? <;> simp [FrameBuffer.chosen_self, ← hj, hb]
  · cases hb : bs[j]? <;> simp [FrameBuffer.chosen_of_ne hj, hj, hb]

/-- Giving up every record but the FILLING one keeps the agreement and leaves none SHOWN. -/
theorem TableAgrees.map_givenUp (h : TableAgrees bs owner) :
    TableAgrees (bs.map .givenUp) owner ∧ buffersIn .shown (bs.map .givenUp) = 0 := by
  obtain ⟨hlen, hfill, -, -, hown, hrise⟩ := h
  have hstate : ∀ st, buffersIn st (bs.map .givenUp)
      = bs.countP fun b => (if b.state = .filling then .filling else .free) == st := fun st => by
    simp [buffersIn, List.countP_map, Function.comp_def, FrameBuffer.givenUp_state]
  have hzero : ∀ st, st ≠ .free → st ≠ .filling → buffersIn st (bs.map .givenUp) = 0 := fun st hf hn => by
    rw [hstate, List.countP_eq_zero]
    intro b _
    split <;> simp [Ne.symm hf, Ne.symm hn]
  refine ⟨⟨by simpa using hlen, ?_, by simp [hzero], by simp [hzero], fun i hi => ?_, fun b hb => ?_⟩,
    hzero _ (by decide) (by decide)⟩
  · rw [← hfill, hstate]
    exact List.countP_congr fun b _ => by split <;> simp_all
  · obtain ⟨b, hb, hst⟩ := hown i hi
    exact ⟨b.givenUp, by simp [hb], by simp [FrameBuffer.givenUp_state, hst]⟩
  · obtain ⟨c, hc, rfl⟩ := List.mem_map.1 hb
    rw [FrameBuffer.givenUp_rows]
    exact hrise c hc

/-- The Presenter shows one READY record and gives up the rest (R147). -/
theorem TableAgrees.choose (h : TableAgrees bs owner) (hb : bs[i]? = some b) (hr : b.state = .ready) :
    TableAgrees (bs.zipIdx.map fun p => p.1.chosen i p.2) owner := by
  obtain ⟨hgiven, hnone⟩ := h.map_givenUp
  have hst : b.givenUp.state = .free := by simp [FrameBuffer.givenUp_state, hr]
  have hb' : (bs.map FrameBuffer.givenUp)[i]? = some b.givenUp := by simp [hb]
  rw [chosen_eq_modifyAt]
  have hrise : RowsRise b.givenUp.rows := hgiven.rows _ (List.mem_of_getElem? hb')
  refine hgiven.modifyAt hb' hrise (by simp [hst]) (fun _ => .inr (by omega)) (by simp) fun j hj => ?_
  rwa [if_neg (hgiven.ne_of_owned hb' (by simp [hst]) hj)]

end Table

end Sys2Proof.Machine
end

section
/-! PROOFS. What every command keeps: an invariant that the clock, the transmitter, the steps due and a
RESTART's reset keep is kept by a command whose own effect keeps it. -/

namespace Sys2Proof.Machine

/-- An operation that keeps an invariant. -/
def Keeps (P : State → Prop) (f : State → State) : Prop := ∀ s, P s → P (f s)

/-- An invariant that is kept by all that a command does beside its own effect (assumption 3). -/
structure KeptInPassing (P : State → Prop) : Prop where
  clock : ∀ t, Keeps P (advanceTo t)
  transmitter : Keeps P refreshTx
  step : ∀ d, Keeps P fun s => perform d (s.setDue (s.due.erase d))
  restart : Keeps P restartReset

section Kept

variable {P : State → Prop} {f g : State → State}

theorem Keeps.id : Keeps P fun s => s := fun _ hs => hs

theorem Keeps.comp (hg : Keeps P g) (hf : Keeps P f) : Keeps P fun s => g (f s) := fun s hs => hg _ (hf s hs)

theorem Keeps.ite {p : State → Prop} [∀ s, Decidable (p s)] (hf : Keeps P f) (hg : Keeps P g) :
    Keeps P fun s => if p s then f s else g s := fun s hs => by
  dsimp only
  split
  · exact hf s hs
  · exact hg s hs

/-- What a command answers meets the invariant when the state it computes does. -/
theorem Keeps.of_next {s t u : State}
    (h : (Host.Outcome.next t : Host.Outcome State Fault Refusal) = .next u) (hf : P s → P t) (hs : P s) :
    P u := Host.Outcome.next.inj h ▸ hf hs

section Passing

variable (hp : KeptInPassing P)

include hp

theorem KeptInPassing.takeDue (d : DueStep) : Keeps P (takeDue d) :=
  (hp.transmitter.comp (hp.step d)).ite .id

theorem KeptInPassing.settle : Keeps P settle := fun s hs => by
  have htaken : ∀ (l : List DueStep) (t : State), P t → P (l.foldl (fun t d => Machine.takeDue d t) t) :=
    fun l => by
      induction l with
      | nil => exact fun _ ht => ht
      | cons d l ih => exact fun t ht => ih _ (hp.takeDue d t ht)
  exact hp.restart.ite (p := fun s => s.restartDue = true) .id _ (htaken s.due s hs)

theorem KeptInPassing.runTo (t : Nat) : Keeps P (runTo t) := (hp.clock t).comp (hp.settle.ite .id)

theorem Keeps.whenRunning (hf : Keeps P f) : Keeps P (whenRunning f) :=
  (hp.transmitter.comp (hf.comp hp.settle)).ite .id

theorem Keeps.atTime (hf : Keeps P f) (t : Nat) : Keeps P (atTime t f) := (hf.comp (hp.clock t)).whenRunning hp

theorem Keeps.atDeadline (hf : Keeps P f) (deadline : State → Option Nat) : Keeps P (atDeadline deadline f) :=
  Keeps.whenRunning hp fun s hs => by
    split
    · exact hf _ (hp.clock _ s hs)
    · exact hs

theorem Keeps.linkEvent (hf : Keeps P f) (t : Nat) : Keeps P (linkEvent t f) := (hf.ite .id).atTime hp t

end Passing

end Kept

end Sys2Proof.Machine
end

section
/-! PROOFS. Every step keeps the buffers in agreement with the frame in progress (R142, R146). -/

namespace Sys2Proof.Machine

/-! ### What leaves the buffers alone -/

/-- The invariant speaks of the buffers and the frame in progress alone. -/
theorem BuffersAgree.of_eq {s u : State} (hs : BuffersAgree s) (hbuffers : u.buffers = s.buffers)
    (hframe : u.input.frame = s.input.frame) : BuffersAgree u := by
  rw [buffersAgree_iff, InputPort.owner] at hs ⊢
  rwa [hbuffers, hframe]

/-- An operation that touches neither the buffers nor the frame in progress. -/
def LeavesBuffers (f : State → State) : Prop := ∀ s,
  (f s).buffers = s.buffers ∧ (f s).input.frame = s.input.frame

theorem LeavesBuffers.keeps {f : State → State} (h : LeavesBuffers f) : Keeps BuffersAgree f :=
  fun s hs => hs.of_eq (h s).1 (h s).2

@[simp] theorem inputAtMark_input_frame (s : State) : (inputAtMark s).input.frame = s.input.frame := by
  unfold inputAtMark
  split <;> rfl

@[simp] theorem startTimers_input_frame (s : State) : (startTimers s).input.frame = s.input.frame := by
  rw [startTimers_input]
  split <;> rfl

theorem perform_leavesBuffers (d : DueStep) : LeavesBuffers (perform d) := fun s => by
  cases d with
  | listenPeriodEnd | rejoin => simp only [perform]; split <;> simp
  | peerLost n | peerPurge n | announcement | holdLimit => simp [perform]

theorem checkSection_leavesBuffers : LeavesBuffers checkSection := fun s => by
  unfold checkSection
  split
  · dsimp only
    (repeat' split) <;> simp
  · simp

theorem finishLoad_leavesBuffers : LeavesBuffers finishLoad := fun s => by
  unfold finishLoad
  dsimp only
  (repeat' split) <;> simp [-startTimers_input]

theorem finishScan_leavesBuffers (codes : List (BitVec 12)) : LeavesBuffers (finishScan codes) := fun s => by
  unfold finishScan completeScan
  (repeat' split) <;> simp

theorem receive_leavesBuffers (bits : CharacterBits) : LeavesBuffers (receive bits) := fun s => by
  unfold receive
  split <;> simp

theorem dispatchStatus_leavesBuffers : LeavesBuffers dispatchStatus := fun s => by
  unfold dispatchStatus
  (repeat' (first | split | (dsimp only; split))) <;> simp [applyStatus]

theorem dispatchNotice_leavesBuffers (mk : MsgKind) (kind : HandoverKind) :
    LeavesBuffers (dispatchNotice mk kind) := fun s => by
  unfold dispatchNotice
  (repeat' (first | split | (dsimp only; split))) <;> simp [applyNotice]

theorem dropShortOrder_leavesBuffers : LeavesBuffers dropShortOrder := fun s => by
  unfold dropShortOrder
  (repeat' split) <;> simp

/-! ### Orders (R177 to R183) -/

/-- No order touches the buffers (R180). -/
theorem settleOrder_leavesBuffers {act : Order → State → Settled}
    (hact : ∀ o, LeavesBuffers fun s => (act o s).after) (m : Message) (o : Order) :
    LeavesBuffers (settleOrder act m o) := fun s => by
  unfold settleOrder
  dsimp only
  split
  · simp [hact o s]
  · simp [refuse]

theorem withOrder_leavesBuffers {accepts : Order → Bool} {carry : Message → Order → State → State}
    (hcarry : ∀ m o, LeavesBuffers (carry m o)) : LeavesBuffers (withOrder accepts carry) := fun s => by
  unfold withOrder
  (repeat' (first | split | (dsimp only; split))) <;> simp [hcarry _ _ _]

theorem carryRestart_leavesBuffers (m : Message) (o : Order) : LeavesBuffers (carryRestart m o) := fun s => by
  unfold carryRestart
  split <;> simp

theorem carriedBy_leavesBuffers (c : Instr) (m : Message) (o : Order) : LeavesBuffers (carriedBy c m o) := by
  cases c with
  | orderUnknown => exact fun s => by simp [carriedBy, carryUnknown]
  | restart => exact carryRestart_leavesBuffers m o
  | dark | clear => exact settleOrder_leavesBuffers (fun o s => by simp [actDark, actClear, carriedOut]) m o
  | level | light | pattern | store | sleep | wake =>
    refine settleOrder_leavesBuffers (fun o s => ?_) m o
    simp only [actLevel, actLight, actPattern, actStore, actSleep, actWake, refuse, carriedOut]
    (repeat' split) <;> simp
  | readStartRecord | readCounters | readPeerEntry | readZone | readFaultRecord | readPhotometer
  | readLevels =>
    refine settleOrder_leavesBuffers (fun o s => ?_) m o
    simp only [actRead, actReadPeer, actReadZone, refuse]
    split <;> simp
  | _ => exact fun s => ⟨rfl, rfl⟩

/-! ### The link (R143 to R145, R148) -/

theorem owner_of_frame {s : State} {f : InputFrame} (hf : s.input.frame = some f) :
    s.input.owner = some f.buffer := by simp [InputPort.owner, hf]

theorem owner_of_none {s : State} (hf : s.input.frame = none) : s.input.owner = none := by
  simp [InputPort.owner, hf]

theorem takeFrameStart_keepsBuffers : Keeps BuffersAgree takeFrameStart := fun s hs => by
  have hgive : ∀ {t : State} {i b} (q), t.buffers = s.buffers → s.buffers[i]? = some b →
      s.input.owner = none ∨ s.input.owner = some i → BuffersAgree (t.giveBuffer i q) := by
    intro t i b q ht hb ho
    rw [buffersAgree_iff] at hs ⊢
    simpa [State.giveBuffer, InputPort.owner, ht] using hs.give hb ho q
  unfold takeFrameStart
  dsimp only
  split
  · rename_i f hf
    have ho := owner_of_frame (s := s) hf
    obtain ⟨b, hb, -⟩ := (buffersAgree_iff.1 hs).owned f.buffer ho
    exact hgive _ (by simp) hb (.inr ho)
  · rename_i hf
    have ho := owner_of_none (s := s) hf
    split
    · rename_i i hi
      obtain ⟨hlt, -, -⟩ := List.findIdx?_eq_some_iff_getElem.1 hi
      exact hgive _ rfl (List.getElem?_eq_getElem hlt) (.inl ho)
    · split
      · rename_i i hi
        obtain ⟨b, hb, -⟩ := oldestReady_index hi
        exact hgive _ (by simp) hb (.inl ho)
      · exact hs.of_eq rfl rfl

theorem takeLine_keepsBuffers (pixels : List Pixel) : Keeps BuffersAgree (takeLine pixels) := fun s hs => by
  unfold takeLine
  split
  · exact hs
  · rename_i f hf
    dsimp only
    split
    · rw [buffersAgree_iff, owner_of_frame hf] at hs
      exact buffersAgree_iff.2 (hs.write f.lines (pixels.take s.settings.hdr.inW))
    · exact hs

theorem truncateFrame_keepsBuffers : Keeps BuffersAgree truncateFrame := fun s hs => by
  unfold truncateFrame
  split
  · exact hs
  · rename_i f hf
    rw [buffersAgree_iff, owner_of_frame hf] at hs
    exact buffersAgree_iff.2 (hs.finish (fun _ => rfl) (.inl fun _ => rfl))

/-- The older of two READY buffers is given up before a frame's own becomes READY (R145). -/
def makeRoom (s : State) : State :=
  if buffersIn .ready s.buffers ≥ 2 then
    match oldestReady s.buffers with
    | some i => (s.setBufferState i .free).count .drop
    | none => s
  else s

theorem completeFrame_eq (f : InputFrame) (s : State) : completeFrame f s =
    causeClears .input (((makeRoom s).setBuffers (modifyAt
      (fun b => { b with state := .ready, sequence := f.sequence }) f.buffer (makeRoom s).buffers)).setInput
        { (makeRoom s).input with link := .receiving, frame := none, hold := 0 }) := rfl

/-- One buffer READY at most is left when room has been made, and the agreement stands. -/
theorem makeRoom_buffersAgree {s : State} (hs : BuffersAgree s) :
    BuffersAgree (makeRoom s) ∧ (makeRoom s).input = s.input
      ∧ buffersIn .ready (makeRoom s).buffers ≤ 1 := by
  have hready := (buffersAgree_iff.1 hs).ready
  unfold makeRoom
  split
  · split
    · rename_i i hi
      obtain ⟨b, hb, hr⟩ := oldestReady_index hi
      have hfreed := buffersIn_modifyAt hb (fun b => { b with state := .free }) .ready
      rw [if_pos hr, if_neg (by simp)] at hfreed
      have hone : buffersIn .ready (modifyAt (fun b => { b with state := .free }) i s.buffers) ≤ 1 := by
        omega
      have hagree : BuffersAgree (s.setBufferState i .free) :=
        buffersAgree_iff.2 ((buffersAgree_iff.1 hs).giveUp hb hr)
      exact ⟨hagree.of_eq (by simp) (by simp), by simp, by simpa [State.setBufferState] using hone⟩
    · rename_i htwo hnone
      have hzero : buffersIn .ready s.buffers = 0 := by
        simpa [oldestReady, pickReady_eq_none_iff, buffersIn, List.countP_eq_zero] using hnone
      omega
  · exact ⟨hs, rfl, by omega⟩

theorem completeFrame_buffersAgree {s : State} {f : InputFrame} (hs : BuffersAgree s)
    (hf : s.input.frame = some f) : BuffersAgree (completeFrame f s) := by
  obtain ⟨hroom, hinput, hone⟩ := makeRoom_buffersAgree hs
  rw [buffersAgree_iff, owner_of_frame (hinput ▸ hf)] at hroom
  rw [completeFrame_eq, buffersAgree_iff]
  exact hroom.finish (fun _ => rfl) (.inr ⟨fun _ => rfl, hone⟩)

theorem takeFrameEnd_keepsBuffers : Keeps BuffersAgree takeFrameEnd := fun s hs => by
  unfold takeFrameEnd
  split
  · exact hs
  · rename_i f hf
    split
    · exact completeFrame_buffersAgree hs hf
    · exact truncateFrame_keepsBuffers s hs

theorem loseInput_keepsBuffers : Keeps BuffersAgree loseInput := fun _ hs =>
  truncateFrame_keepsBuffers _ (hs.of_eq rfl rfl)

/-! ### The frame mark (R147) -/

theorem presenterChoice_keepsBuffers : Keeps BuffersAgree presenterChoice := fun s hs => by
  unfold presenterChoice
  split
  · rename_i i hi
    obtain ⟨b, hb, hr⟩ := newestReady_index hi
    have hchosen : BuffersAgree (s.setBuffers (s.buffers.zipIdx.map fun p => p.1.chosen i p.2)) :=
      buffersAgree_iff.2 ((buffersAgree_iff.1 hs).choose hb hr)
    dsimp only
    split
    · exact hchosen.of_eq (by simp) (by simp)
    · exact hchosen
  · split
    · exact hs.of_eq (by simp) (by simp)
    · exact hs

/-- Of a mark's work the Presenter's choice alone touches the buffers, and none the frame in progress. -/
theorem frameMark_keepsBuffers : Keeps BuffersAgree frameMark := fun s hs => by
  have hchosen := presenterChoice_keepsBuffers (cutRaster (timerAtMark s)) (hs.of_eq (by simp) (by simp))
  exact hchosen.of_eq (frameMark_buffers s) (by simp [frameMark])

theorem takeFall_keepsBuffers : Keeps BuffersAgree takeFall := fun s hs => by
  cases hline : s.timer.lineState with
  | stuck => rw [takeFall_of_stuck hline]; exact hs.of_eq rfl rfl
  | normal =>
    rw [takeFall_of_normal hline]
    split
    · exact frameMark_keepsBuffers _ (hs.of_eq rfl rfl)
    · exact hs.of_eq rfl rfl

theorem takeExpiry_keepsBuffers : Keeps BuffersAgree takeExpiry := fun s hs => by
  cases hline : s.timer.lineState with
  | stuck => rw [takeExpiry_of_stuck hline]; exact frameMark_keepsBuffers _ (hs.of_eq rfl rfl)
  | normal =>
    by_cases hsleep : s.life.state = .sleep
    · rw [takeExpiry_of_sleep hline hsleep]; exact hs.of_eq rfl rfl
    · rw [takeExpiry_of_awake hline hsleep]; exact hs.of_eq rfl rfl

/-! ### Resets (R146, R164) -/

theorem resetBlocks_keepsBuffers (cause : ResetCause) : Keeps BuffersAgree (resetBlocks cause) := fun s hs =>
  (buffersAgree_iff (s := resetBlocks cause s)).2 (buffersAgree_iff.1 hs).reset

theorem restartReset_keepsBuffers : Keeps BuffersAgree restartReset := fun s hs =>
  (resetBlocks_keepsBuffers .restart s hs).of_eq rfl rfl

theorem holdReset_keepsBuffers (cause : ResetCause) : Keeps BuffersAgree (holdReset cause) := fun s hs =>
  (resetBlocks_keepsBuffers cause s hs).of_eq rfl rfl

/-! ### Every command -/

theorem buffersAgree_keptInPassing : KeptInPassing BuffersAgree where
  clock t := LeavesBuffers.keeps fun s => by simp
  transmitter := LeavesBuffers.keeps fun s => by simp
  step d := LeavesBuffers.keeps fun s => perform_leavesBuffers d _
  restart := restartReset_keepsBuffers

/-- A command whose own effect leaves the buffers alone, at a time that ends. -/
theorem LeavesBuffers.atDeadline {f : State → State} (hf : LeavesBuffers f) (deadline : State → Option Nat) :
    Keeps BuffersAgree (atDeadline deadline f) := hf.keeps.atDeadline buffersAgree_keptInPassing deadline

/-- The same at an outside event. -/
theorem LeavesBuffers.atTime {f : State → State} (hf : LeavesBuffers f) (t : Nat) :
    Keeps BuffersAgree (atTime t f) := hf.keeps.atTime buffersAgree_keptInPassing t

theorem LeavesBuffers.whenRunning {f : State → State} (hf : LeavesBuffers f) :
    Keeps BuffersAgree (whenRunning f) := hf.keeps.whenRunning buffersAgree_keptInPassing

theorem lineEdge_keepsBuffers {f : State → State} (hf : Keeps BuffersAgree f) (t : Nat) (low : Bool) :
    Keeps BuffersAgree (lineEdge t low f) :=
  .ite (Keeps.atTime buffersAgree_keptInPassing
      (hf.comp (f := (State.setLine · low)) fun _ hs => hs.of_eq rfl rfl) t) fun _ hs => hs.of_eq rfl rfl

theorem resetRelease_keepsBuffers (t : Nat) (straps : Straps) : Keeps BuffersAgree fun s =>
    if s.resetPhase = .held then releaseReset straps (advanceTo t s) else s :=
  .ite (LeavesBuffers.keeps fun s => by simp [releaseReset]) .id

theorem powerOn_keepsBuffers (t : Nat) : Keeps BuffersAgree fun s =>
    holdReset .power (if s.resetPhase = .unpowered then runTo t s else losePower (runTo t s)) := fun s hs => by
  have hrun := buffersAgree_keptInPassing.runTo t s hs
  refine holdReset_keepsBuffers .power _ ?_
  split
  · exact hrun
  · exact hrun.of_eq (by simp) (by simp)

theorem powerLost_keepsBuffers (t : Nat) : Keeps BuffersAgree fun s => if s.resetPhase = .unpowered then s
    else (resetBlocks .power (losePower (runTo t s))).setResetPhase .unpowered := .ite .id fun s hs => by
  have hrun := buffersAgree_keptInPassing.runTo t s hs
  exact (resetBlocks_keepsBuffers .power _ (hrun.of_eq (u := losePower (runTo t s)) (by simp) (by simp))).of_eq
    rfl rfl

/-- A command that runs as the console's orders do. -/
theorem order_keepsBuffers {c : Instr} {s u : State} (h : exec c s = .next u)
    (hc : exec c s = .next (whenRunning (withOrder c.takesOrder (carriedBy c)) s)) :
    BuffersAgree s → BuffersAgree u :=
  Keeps.of_next (hc.symm.trans h) ((withOrder_leavesBuffers (carriedBy_leavesBuffers c)).whenRunning s)

/-- Every command keeps the buffers in agreement with the frame in progress. -/
theorem exec_keepsBuffers (c : Instr) {s u : State} (h : exec c s = .next u) :
    BuffersAgree s → BuffersAgree u := by
  have hp := buffersAgree_keptInPassing
  cases c with
  | powerOn t => exact Keeps.of_next h (powerOn_keepsBuffers t s)
  | pinReset t =>
    exact Keeps.of_next h (Keeps.ite (p := (·.resetPhase = .unpowered)) .id
      ((holdReset_keepsBuffers .pin).comp (hp.runTo t)) s)
  | resetRelease t straps => exact Keeps.of_next h (resetRelease_keepsBuffers t straps s)
  | powerLost t => exact Keeps.of_next h (powerLost_keepsBuffers t s)
  | restartReset =>
    exact Keeps.of_next h (hp.settle.ite (p := fun s => s.resetPhase = .running ∧ s.restartDue = true) .id s)
  | frameLineFall t => exact Keeps.of_next h (lineEdge_keepsBuffers (.ite .id takeFall_keepsBuffers) t _ s)
  | frameLineRise t =>
    exact Keeps.of_next h (lineEdge_keepsBuffers (.ite .id (LeavesBuffers.keeps fun _ => by simp)) t _ s)
  | frameTimerExpiry => exact Keeps.of_next h (takeExpiry_keepsBuffers.atDeadline hp _ s)
  | inputLossTimeout => exact Keeps.of_next h (loseInput_keepsBuffers.atDeadline hp _ s)
  | frameStart t => exact Keeps.of_next h (takeFrameStart_keepsBuffers.linkEvent hp t s)
  | line t pixels => exact Keeps.of_next h ((takeLine_keepsBuffers pixels).linkEvent hp t s)
  | frameEnd t => exact Keeps.of_next h (takeFrameEnd_keepsBuffers.linkEvent hp t s)
  | listenPeriodEnd => exact Keeps.of_next h (hp.takeDue .listenPeriodEnd s)
  | rejoin => exact Keeps.of_next h (hp.takeDue .rejoin s)
  | peerLost n => exact Keeps.of_next h (hp.takeDue (.peerLost n) s)
  | peerPurge n => exact Keeps.of_next h (hp.takeDue (.peerPurge n) s)
  | announcementDue => exact Keeps.of_next h (hp.takeDue .announcement s)
  | holdLimitPassed => exact Keeps.of_next h (hp.takeDue .holdLimit s)
  | assertionEnd | lineStuck | lineRecovery | pacePulseEnd | rasterDone | assemblerTimeout
  | eepromReadyTimeout | storeFlagClear | gapElapsed | backoffElapsed | leadStart | messageSent =>
    exact Keeps.of_next h (LeavesBuffers.atDeadline (fun _ => by simp) _ s)
  | storeTransferEnd t | startBit t => exact Keeps.of_next h (LeavesBuffers.atTime (fun _ => by simp) t s)
  | eepromAcknowledge t | headerCheck t | collision t =>
    exact Keeps.of_next h (Keeps.atTime hp (.ite (LeavesBuffers.keeps fun _ => by simp) .id) t s)
  | loadFinished t =>
    exact Keeps.of_next h (Keeps.atTime hp (.ite finishLoad_leavesBuffers.keeps .id) t s)
  | sectionCheck t => exact Keeps.of_next h (checkSection_leavesBuffers.atTime t s)
  | characterReceived t bits => exact Keeps.of_next h ((receive_leavesBuffers bits).atTime t s)
  | scanComplete codes => exact Keeps.of_next h ((finishScan_leavesBuffers codes).whenRunning s)
  | statusApplied => exact Keeps.of_next h (dispatchStatus_leavesBuffers.whenRunning s)
  | joinApplied => exact Keeps.of_next h ((dispatchNotice_leavesBuffers .join .join).whenRunning s)
  | leaveApplied => exact Keeps.of_next h ((dispatchNotice_leavesBuffers .leave .leave).whenRunning s)
  | orderTooShort => exact Keeps.of_next h (dropShortOrder_leavesBuffers.whenRunning s)
  | orderUnknown | level | dark | light | pattern | readStartRecord | readCounters | readPeerEntry
  | readZone | readFaultRecord | readPhotometer | readLevels | clear | store | restart | sleep | wake =>
    exact order_keepsBuffers h rfl

/-- Settles O56: by the command at the front of the queue. -/
theorem everyStepKeepsBuffers : Obligations.EveryStepKeepsBuffers := by
  unfold Obligations.EveryStepKeepsBuffers
  intro s u h hs
  unfold step at h
  split at h
  · exact Keeps.of_next h id hs
  · exact exec_keepsBuffers _ h (hs.of_eq rfl rfl)

end Sys2Proof.Machine
end

section
/-! PROOFS. The input link: its loss, a frame start and a line (R141 to R144, R148). -/

namespace Sys2Proof.Machine

/-! ### A link event (R141) -/

theorem takesLink_iff {s : State} :
    s.takesLink = true ↔ s.life.state ≠ .start ∧ s.settings.hasInput = true := by
  simp [State.takesLink]

/-- In a calm state time runs on to the event, which is taken where the link is. -/
theorem linkEvent_of_calm {s : State} (h : s.calm) (t : Nat) (f : State → State) :
    linkEvent t f s = refreshTx (if s.takesLink then f (advanceTo t s) else advanceTo t s) := by
  have htakes : (advanceTo t s).takesLink = s.takesLink := by simp [State.takesLink]
  rw [← htakes]
  exact atTime_of_calm h t _

/-- The link is ignored in START and without an input raster. -/
theorem linkEvent_of_ignored {s : State} (h : s.calm)
    (hno : s.life.state = .start ∨ s.settings.hasInput = false) (t : Nat) (f : State → State) :
    linkEvent t f s = refreshTx (advanceTo t s) := by
  have htakes : ¬s.takesLink = true := by
    rw [takesLink_iff]
    rcases hno with hno | hno <;> simp [hno]
  rw [linkEvent_of_calm h, if_neg htakes]

theorem linkEvent_of_taken {s : State} (h : s.calm) (hst : s.life.state ≠ .start)
    (hin : s.settings.hasInput = true) (t : Nat) (f : State → State) :
    linkEvent t f s = refreshTx (f (advanceTo t s)) := by
  rw [linkEvent_of_calm h, if_pos (takesLink_iff.2 ⟨hst, hin⟩)]

/-! ### The input is lost (R148) -/

/-- With no frame in progress there is none to truncate. -/
theorem truncateFrame_of_none {s : State} (hf : s.input.frame = none) : truncateFrame s = s := by
  simp [truncateFrame, hf]

/-- A frame truncated leaves its buffer FREE and counts TRUNC. -/
theorem truncateFrame_of_frame {s : State} {f : InputFrame} (hf : s.input.frame = some f) :
    truncateFrame s = { s with
      buffers := modifyAt (fun b => { b with state := .free }) f.buffer s.buffers
      input := { s.input with frame := none }
      faults := { s.faults with counters := s.faults.counters.raise .trunc } } := by
  simp [truncateFrame, hf, State.setBufferState, State.setBuffers, State.setInput, State.count,
    State.setFaults]

@[simp] theorem truncateFrame_input (s : State) :
    (truncateFrame s).input = { s.input with frame := none } := by
  cases hf : s.input.frame with
  | none => rw [truncateFrame_of_none hf, ← hf]
  | some f => rw [truncateFrame_of_frame hf]

theorem exec_inputLossTimeout_of_deadline {s : State} {d : Nat} (h : s.calm)
    (hd : s.input.lossDeadline = some d) :
    exec .inputLossTimeout s = .next (refreshTx (loseInput (advanceTo d s))) :=
  congrArg _ (atDeadline_of_calm (deadline := (·.input.lossDeadline)) h hd _)

/-- Settles O27: the link is LOST at its deadline, and a frame in progress is truncated. -/
theorem inputIsLostAfterLossTime : Obligations.InputIsLostAfterLossTime := by
  unfold Obligations.InputIsLostAfterLossTime
  rintro s d hcalm hd ⟨hlen, -⟩
  refine ⟨_, exec_inputLossTimeout_of_deadline hcalm hd, by simp, ?input, fun hf => ?idle,
    fun f hf => ?truncated, by simp, by simp, by simp, by simp⟩
  case input => simp [loseInput]
  case idle =>
    rw [loseInput, truncateFrame_of_none (by simpa using hf)]
    simp
  case truncated =>
    rw [loseInput, truncateFrame_of_frame (f := f) (by simpa using hf)]
    refine ⟨fun j hj => ?_, by simp [CounterBlock.raise, satInc]⟩
    exact State.buffer_of_modifyAt (s := s) (g := fun b => { b with state := .free }) (by simp) (hlen ▸ hj)

/-! ### A frame start (R143) -/

/-- The sequence of the frame that starts now, and its loss time. -/
def startFrame (s : State) : State := s.setInput { s.input with
  startedFrames := s.input.startedFrames + 1, lossDeadline := some (s.now + s.lossTime) }

/-- A frame in progress gives its buffer to the new one, and TRUNC is counted. -/
theorem takeFrameStart_of_frame {s : State} {f : InputFrame} (hf : s.input.frame = some f) :
    takeFrameStart s = ((startFrame s).count .trunc).giveBuffer f.buffer (s.input.startedFrames + 1) := by
  simp [takeFrameStart, startFrame, hf]

/-- With none in progress the FREE buffer of lowest index is taken. -/
theorem takeFrameStart_of_free {s : State} {i : Nat} (hf : s.input.frame = none) (hi : i < s.buffers.length)
    (hfree : (s.buffer i).state = .free) (hleast : ∀ j, j < i → (s.buffer j).state ≠ .free) :
    takeFrameStart s = (startFrame s).giveBuffer i (s.input.startedFrames + 1) := by
  have hfind : s.buffers.findIdx? (fun b => b.state == .free) = some i := by
    rw [List.findIdx?_eq_some_iff_getElem]
    exact ⟨hi, by simp [State.getElem_buffers, hfree],
      fun j hj => by simp [State.getElem_buffers, hleast j hj]⟩
  simp [takeFrameStart, startFrame, hf, hfind]

/-- With none FREE either the older of two READY buffers is taken, and DROP is counted. -/
theorem takeFrameStart_of_ready {s : State} {i : Nat} (hf : s.input.frame = none)
    (hnofree : ∀ b ∈ s.buffers, b.state ≠ .free) (hold : oldestReady s.buffers = some i) :
    takeFrameStart s = ((startFrame s).count .drop).giveBuffer i (s.input.startedFrames + 1) := by
  have hfind : s.buffers.findIdx? (fun b => b.state == .free) = none := by
    simpa [List.findIdx?_eq_none_iff] using hnofree
  simp [takeFrameStart, startFrame, hf, hfind, hold]

/-- The buffer that a new frame takes, when it is i: that of the frame in progress, else the FREE one of lowest
index, else the older of two READY ones (R143). -/
def State.newFrameTakes (s : State) (i : Nat) : Prop :=
  (∃ f, s.input.frame = some f ∧ f.buffer = i)
    ∨ s.input.frame = none ∧ (s.buffer i).state = .free ∧ (∀ j, j < i → (s.buffer j).state ≠ .free)
    ∨ s.input.frame = none ∧ (∀ j, j < 3 → (s.buffer j).state ≠ .free) ∧ (s.buffer i).state = .ready
        ∧ ∃ j, j < 3 ∧ (s.buffer j).state = .ready
          ∧ ahead (s.buffer j).sequence (s.buffer i).sequence = true

/-- A new frame takes its buffer: TRUNC is counted for a frame in progress, and DROP for a READY buffer. -/
theorem takeFrameStart_of_takes {s : State} {i : Nat} (hs : BuffersAgree s) (hi : i < 3)
    (h : s.newFrameTakes i) :
    takeFrameStart s = ((startFrame s).setFaults { s.faults with counters := { s.faults.counters with
      trunc := if s.input.frame ≠ none then min 65535 (s.faults.counters.trunc + 1)
        else s.faults.counters.trunc
      drop := if s.input.frame = none ∧ (s.buffer i).state = .ready
        then min 65535 (s.faults.counters.drop + 1) else s.faults.counters.drop } }).giveBuffer i
          (s.input.startedFrames + 1) := by
  obtain ⟨hlen, -, -, htwo, -⟩ := hs
  rcases h with ⟨f, hf, rfl⟩ | ⟨hf, hfree, hleast⟩ | ⟨hf, hnofree, hready, j, hj, hreadyj, hahead⟩
  · rw [takeFrameStart_of_frame hf]
    simp [hf, State.count, CounterBlock.raise, satInc, startFrame]
  · rw [takeFrameStart_of_free hf (hlen ▸ hi) hfree hleast]
    simp [hf, hfree, State.setFaults, startFrame, State.setInput]
  · have hold : oldestReady s.buffers = some i :=
      oldestReady_of_ahead (State.getElem?_buffers (hlen ▸ hi)) (State.getElem?_buffers (hlen ▸ hj)) hready
        hreadyj hahead htwo
    have hmem : ∀ b ∈ s.buffers, b.state ≠ .free := List.forall_mem_iff_forall_getElem.2 fun n hn => by
      rw [State.getElem_buffers]
      exact hnofree n (hlen ▸ hn)
    rw [takeFrameStart_of_ready hf hmem hold]
    simp [hf, hready, State.count, CounterBlock.raise, satInc, startFrame]

/-- Settles O28: the event is ignored, or it takes its buffer in one of the three ways of R143. -/
theorem frameStartTakesBuffer : Obligations.FrameStartTakesBuffer := by
  unfold Obligations.FrameStartTakesBuffer
  refine fun t s hcalm hs => ⟨fun hno => congrArg _ (linkEvent_of_ignored hcalm hno t _),
    fun hst hin i hi htakes => ?taken⟩
  have hrun : exec (.frameStart t) s = .next (refreshTx (takeFrameStart (advanceTo t s))) :=
    congrArg _ (linkEvent_of_taken hcalm hst hin t _)
  obtain ⟨e, sc, cs, hadv⟩ := advanceTo_eq t s
  have hgiven := takeFrameStart_of_takes (s := advanceTo t s) (by rw [hadv]; exact hs) hi
    (by rw [hadv]; exact htakes)
  rw [hadv] at hgiven
  rw [hrun, hadv, hgiven]
  have hlen : s.buffers.length = 3 := hs.1
  refine ⟨_, rfl, ?_, fun j hj => ?_, by simp [State.buffer], by simp [startFrame], by simp [startFrame]⟩
  · simp [State.giveBuffer, startFrame, State.lossTime, State.periodNs]
  · exact State.buffer_of_modifyAt (s := s)
      (g := fun b => { b with state := .filling, sequence := s.input.startedFrames + 1 })
      (by simp [State.giveBuffer, startFrame]) (hlen ▸ hj)

/-! ### A line (R144) -/

/-- With no frame in progress, or past its last line, a line is ignored. -/
theorem takeLine_of_ignored {s : State} (h : ∀ f ∈ s.input.frame, s.settings.hdr.inH ≤ f.lines)
    (pixels : List Pixel) : takeLine pixels s = s := by
  unfold takeLine
  split
  · rfl
  · rename_i f hf
    exact if_neg (Nat.not_lt.2 (h f hf))

/-- A line is written to its row of the frame's buffer and counted. -/
theorem takeLine_of_frame {s : State} {f : InputFrame} (hf : s.input.frame = some f)
    (hlines : f.lines < s.settings.hdr.inH) (pixels : List Pixel) : takeLine pixels s = { s with
      buffers := modifyAt (fun b => { b with
        rows := writeRow b.rows f.lines (pixels.take s.settings.hdr.inW) }) f.buffer s.buffers
      input := { s.input with frame := some { f with
        lines := f.lines + 1
        short := f.short || decide (pixels.length < s.settings.hdr.inW) } } } := by
  simp [takeLine, hf, hlines, State.setBuffers, State.setInput]

/-- Settles O29: the line is ignored, or it is written to its row and nowhere else. -/
theorem lineGoesToItsRow : Obligations.LineGoesToItsRow := by
  unfold Obligations.LineGoesToItsRow
  refine fun t pixels s hcalm hs => ⟨fun hno => congrArg _ (linkEvent_of_ignored hcalm hno t _),
    fun hst hin f hf hlines => ?written, fun hpast => ?past⟩
  case past =>
    have hsame : takeLine pixels (advanceTo t s) = advanceTo t s :=
      takeLine_of_ignored (by simpa using hpast) pixels
    have hrun := linkEvent_of_calm hcalm t (takeLine pixels)
    rw [hsame, ite_self] at hrun
    exact congrArg _ hrun
  case written =>
    obtain ⟨hlen, -, -, -, -, hframe, hrows⟩ := hs
    obtain ⟨hlt, hfilling⟩ := hframe f hf
    have hrise : RowsRise (s.buffer f.buffer).rows :=
      hrows _ (List.mem_of_getElem? (State.getElem?_buffers (hlen ▸ hlt)))
    have hrun : exec (.line t pixels) s = .next (refreshTx (takeLine pixels (advanceTo t s))) :=
      congrArg _ (linkEvent_of_taken hcalm hst hin t _)
    rw [hrun, takeLine_of_frame (f := f) (by simpa using hf) (by simpa using hlines)]
    refine ⟨_, rfl, by simp, ?_⟩
    generalize hu : refreshTx _ = u
    have hbuffer : ∀ j, j < 3 → u.buffer j = if j = f.buffer
        then { s.buffer j with
          rows := writeRow (s.buffer j).rows f.lines (pixels.take s.settings.hdr.inW) }
        else s.buffer j := fun j hj =>
      State.buffer_of_modifyAt (s := s) (g := fun b => { b with
        rows := writeRow b.rows f.lines (pixels.take s.settings.hdr.inW) }) (by simp [← hu]) (hlen ▸ hj)
    have hown := hbuffer f.buffer hlt
    rw [if_pos rfl] at hown
    have hrow : ∀ row, rowOf (u.buffer f.buffer).rows row = if row = f.lines
        then pixels.take s.settings.hdr.inW ++ (rowOf (s.buffer f.buffer).rows f.lines).drop
          (pixels.take s.settings.hdr.inW).length
        else rowOf (s.buffer f.buffer).rows row := fun row => by
      rw [hown]
      exact rowOf_writeRow hrise _ _ row
    refine ⟨fun j hj hne => by rw [hbuffer j hj, if_neg hne], by rw [hown]; exact hfilling, by rw [hown],
      fun col hwin hpix => ?inside, fun col hout => ?outside, fun row hne => by rw [hrow, if_neg hne],
      by simp [← hu], by simp [← hu], by simp [← hu]⟩
    case inside =>
      rw [hrow, if_pos rfl, List.getElem?_append_left (by simp; omega), List.getElem?_take_of_lt hwin]
    case outside =>
      have hle : (pixels.take s.settings.hdr.inW).length ≤ col := by simp; omega
      rw [hrow, if_pos rfl, List.getElem?_append_right hle, List.getElem?_drop, Nat.add_sub_cancel' hle]

end Sys2Proof.Machine
end

section
/-! PROOFS. POWER_ON, PIN_RESET and POWER_LOST: what a reset finds of a part, and what it makes of it (R164,
R176). -/

namespace Sys2Proof.Machine

/-! ### What a reset finds -/

/-- Two states that a reset finds alike but for their clock and their link: the queue, what lies outside the
part, the straps, the write cycle and the line's level are the same, and the buffers hold the same pixels. -/
structure ResetAlike (s u : State) : Prop where
  pending : u.pending = s.pending
  draws : u.draws = s.draws
  straps : u.straps = s.straps
  eeprom : u.eeprom = s.eeprom
  cycle : u.loader.cycle = s.loader.cycle
  line : u.timer.lineLow = s.timer.lineLow
  buffers : resetBuffers u.buffers = resetBuffers s.buffers

theorem ResetAlike.of_eq {s u v : State} (h : ResetAlike s u) (hv : v.pending = u.pending
    ∧ v.draws = u.draws ∧ v.straps = u.straps ∧ v.eeprom = u.eeprom ∧ v.loader.cycle = u.loader.cycle
    ∧ v.timer.lineLow = u.timer.lineLow ∧ v.buffers = u.buffers) : ResetAlike s v := by
  obtain ⟨hpending, hdraws, hstraps, heeprom, hcycle, hline, hbuffers⟩ := hv
  exact ⟨hpending.trans h.pending, hdraws.trans h.draws, hstraps.trans h.straps, heeprom.trans h.eeprom,
    hcycle.trans h.cycle, hline.trans h.line, (congrArg resetBuffers hbuffers).trans h.buffers⟩

@[simp] theorem resetBuffers_resetBuffers (bs : List FrameBuffer) :
    resetBuffers (resetBuffers bs) = resetBuffers bs := by
  simp [resetBuffers]

/-- The end of the listen period clears the unset flag, and of the Frame Timer no more (R54). -/
theorem endListen_timer (s : State) : (endListen s).timer = { s.timer with unset := false } := by
  unfold endListen
  dsimp only
  split <;> simp

@[simp] theorem perform_lineLow (d : DueStep) (s : State) :
    (perform d s).timer.lineLow = s.timer.lineLow := by
  cases d with
  | listenPeriodEnd | rejoin => simp only [perform]; split <;> simp [endListen_timer]
  | peerLost n | peerPurge n | announcement | holdLimit => simp [perform]

/-- What a part takes as time passes, a RESTART's reset with it, leaves it as a reset finds it. -/
theorem resetAlike_keptInPassing (s : State) : KeptInPassing (ResetAlike s) where
  clock t u h := h.of_eq (by simp)
  transmitter u h := h.of_eq (by simp)
  step d u h := h.of_eq (by
    simp [(perform_leavesBuffers d (u.setDue (u.due.erase d))).1])
  restart u h := by
    obtain ⟨hpending, hdraws, hstraps, heeprom, hcycle, hline, hbuffers⟩ := h
    exact ⟨hpending, hdraws, hstraps, heeprom, hcycle, hline,
      (resetBuffers_resetBuffers u.buffers).trans hbuffers⟩

theorem runTo_resetAlike (t : Nat) (s : State) : ResetAlike s (runTo t s) :=
  (resetAlike_keptInPassing s).runTo t s ⟨rfl, rfl, rfl, rfl, rfl, rfl, rfl⟩

@[simp] theorem runTo_now (t : Nat) (s : State) : (runTo t s).now = max t s.now := by
  unfold runTo
  split <;> simp

/-- A part that does not run, at a time already past, has nowhere to run to. -/
theorem runTo_of_past {t : Nat} {s : State} (h : s.resetPhase ≠ .running) (ht : t ≤ s.now) :
    runTo t s = s := by
  rw [runTo, if_neg h, advanceTo_past ht]

/-! ### What it makes of the part -/

/-- The reset of a part at the time to which it has run. -/
theorem holdReset_runTo (cause : ResetCause) (t : Nat) (s : State) : holdReset cause (runTo t s)
    = { State.reset with
        pending := s.pending, now := max t s.now, draws := s.draws, straps := s.straps
        eeprom := s.eeprom
        loader := { Loader.reset cause s.straps with cycle := s.loader.cycle }
        buffers := resetBuffers s.buffers
        encoder := { Encoder.reset with closed := (runTo t s).encoder.closed }
        converter := (runTo t s).converter
        bus := .reset (max t s.now) (seedOf s.stn)
        timer := { FrameTimer.reset with lineLow := s.timer.lineLow } } := by
  obtain ⟨hpending, hdraws, hstraps, heeprom, hcycle, hline, hbuffers⟩ := runTo_resetAlike t s
  simp only [holdReset, resetBlocks, State.setResetPhase, State.stn, runTo_now, hpending, hdraws, hstraps,
    heeprom, hcycle, hline, hbuffers]
  rfl

/-- A part that is reset again, its supply gone in between or not, is as after the later reset alone. -/
theorem resetBlocks_resetBlocks (cause cause' : ResetCause) (phase : ResetPhase) (s : State) :
    resetBlocks cause ((resetBlocks cause' s).setResetPhase phase) = resetBlocks cause s := by
  simp only [resetBlocks, State.setResetPhase, State.stn, resetBuffers_resetBuffers]

/-! ### The commands -/

theorem exec_powerOn_of_unpowered {s : State} (h : s.resetPhase = .unpowered) (t : Nat) :
    exec (.powerOn t) s = .next (holdReset .power (runTo t s)) :=
  congrArg (fun r => Host.Outcome.next (holdReset .power r)) (if_pos h)

/-- A part not known to be without supply loses it before the POWER_ON (R176, assumption 7). -/
theorem exec_powerOn_of_supplied {s : State} (h : s.resetPhase ≠ .unpowered) (t : Nat) :
    exec (.powerOn t) s = .next (holdReset .power (losePower (runTo t s))) :=
  congrArg (fun r => Host.Outcome.next (holdReset .power r)) (if_neg h)

theorem exec_powerLost_of_supplied {s : State} (h : s.resetPhase ≠ .unpowered) (t : Nat) :
    exec (.powerLost t) s
      = .next ((resetBlocks .power (losePower (runTo t s))).setResetPhase .unpowered) :=
  congrArg _ (if_neg h)

/-- Settles O7: each command runs the part to its time, and the reset takes what it finds there. -/
theorem powerOnAndPinResetClearEveryOwner : Obligations.PowerOnAndPinResetClearEveryOwner := by
  unfold Obligations.PowerOnAndPinResetClearEveryOwner
  refine ⟨fun t s b hb c cause h => ?reset, fun t s hsupplied => ?lost, fun t s h => congrArg _ (if_pos h)⟩
  case reset =>
    have hrun : exec c s = .next (holdReset cause (runTo t s)) := by
      rcases h with ⟨hph, rfl, rfl⟩ | ⟨hph, rfl, rfl⟩
      · exact exec_powerOn_of_unpowered hph t
      · exact congrArg _ (if_neg hph)
    have hb' : runTo t s = advanceTo t b := by rw [hb, runTo]
    rw [hrun, holdReset_runTo, hb']
    rfl
  case lost =>
    have hpast : t ≤ ((resetBlocks .power (losePower (runTo t s))).setResetPhase .unpowered).now :=
      Nat.le_trans (Nat.le_max_left t s.now) (by simp [resetBlocks])
    refine ⟨_, exec_powerLost_of_supplied hsupplied t, ?_⟩
    rw [exec_powerOn_of_supplied hsupplied, exec_powerOn_of_unpowered rfl, runTo_of_past (by simp) hpast,
      holdReset, holdReset, resetBlocks_resetBlocks]

end Sys2Proof.Machine
end

section
/-! PROOFS. What is due comes before other commands, and the reset of a RESTART (R164, R182; assumptions 3, 20). -/

namespace Sys2Proof.Machine

/-! ### What is due comes first -/

theorem linkEvent_eq (t : Nat) (f : State → State) (s : State) : linkEvent t f s
    = whenRunning (fun s => if (advanceTo t s).takesLink then f (advanceTo t s) else advanceTo t s) s := rfl

/-- All but the commands of supply and reset, the line's edges and the due steps' own commands are the effect of
a part that runs. -/
theorem exec_eq_whenRunning {c : Instr} (hc : c.settlesFirst = true) (hidle : c.reachesIdlePart = false) :
    ∃ f, ∀ s, exec c s = .next (whenRunning f s) := by
  cases c with
  | powerOn | pinReset | powerLost | frameLineFall | frameLineRise => exact nomatch hidle
  | resetRelease | restartReset | listenPeriodEnd | rejoin | peerLost | peerPurge | announcementDue
  | holdLimitPassed => exact nomatch hc
  | eepromAcknowledge | eepromReadyTimeout | headerCheck | sectionCheck | loadFinished | frameTimerExpiry
  | assertionEnd | lineStuck | lineRecovery | pacePulseEnd | rasterDone | inputLossTimeout | scanComplete
  | characterReceived | assemblerTimeout | statusApplied | joinApplied | leaveApplied
  | orderTooShort | orderUnknown | level | dark | light | pattern | readStartRecord | readCounters
  | readPeerEntry | readZone | readFaultRecord | readPhotometer | readLevels | clear | store | restart | sleep
  | wake | storeTransferEnd | storeFlagClear | gapElapsed | backoffElapsed | leadStart | collision | messageSent
  | startBit => exact ⟨_, fun _ => rfl⟩
  | frameStart | line | frameEnd => exact ⟨_, fun _ => congrArg _ (linkEvent_eq _ _ _)⟩

section Running

variable {s : State}

/-- A command of a part that runs acts on the settled part. -/
theorem whenRunning_settle (h : s.resetPhase = .running) (f : State → State) :
    whenRunning f s = whenRunning f (settle s) := by
  rw [whenRunning_of_calm (settle_calm h)]
  exact if_pos h

theorem lineEdge_settle (h : s.resetPhase = .running) (t : Nat) (low : Bool) (f : State → State) :
    lineEdge t low f s = lineEdge t low f (settle s) := by
  rw [lineEdge, lineEdge, if_pos h, if_pos (settle_calm h).1]
  exact whenRunning_settle h _

/-- The commands of supply and reset take what is due before their time comes too. -/
theorem runTo_settle (h : s.resetPhase = .running) (t : Nat) : runTo t s = runTo t (settle s) := by
  have hcalm := settle_calm h
  rw [runTo, runTo, if_pos h, if_pos hcalm.1, settle_of_calm hcalm]

theorem exec_powerOn_settle (h : s.resetPhase = .running) (t : Nat) :
    exec (.powerOn t) s = exec (.powerOn t) (settle s) := by
  rw [exec_powerOn_of_supplied (by simp [h]), exec_powerOn_of_supplied (by simp [(settle_calm h).1]),
    runTo_settle h]

theorem exec_pinReset_settle (h : s.resetPhase = .running) (t : Nat) :
    exec (.pinReset t) s = exec (.pinReset t) (settle s) := by
  simp only [exec, execPinReset, h, (settle_calm h).1, ← runTo_settle h, reduceCtorEq, if_false]

theorem exec_powerLost_settle (h : s.resetPhase = .running) (t : Nat) :
    exec (.powerLost t) s = exec (.powerLost t) (settle s) := by
  rw [exec_powerLost_of_supplied (by simp [h]), exec_powerLost_of_supplied (by simp [(settle_calm h).1]),
    runTo_settle h]

/-- A command that settles first answers as it does on the settled part (assumptions 3, 20). -/
theorem exec_settle {c : Instr} (hc : c.settlesFirst = true) (h : s.resetPhase = .running) :
    exec c s = exec c (settle s) := by
  cases hidle : c.reachesIdlePart with
  | false =>
    obtain ⟨f, hf⟩ := exec_eq_whenRunning hc hidle
    rw [hf, hf, whenRunning_settle h]
  | true =>
    cases c with
    | powerOn t => exact exec_powerOn_settle h t
    | pinReset t => exact exec_pinReset_settle h t
    | powerLost t => exact exec_powerLost_settle h t
    | frameLineFall t | frameLineRise t => exact congrArg Host.Outcome.next (lineEdge_settle h t _ _)
    | resetRelease => exact nomatch hc
    | _ => exact nomatch hidle

end Running

/-- Each due step has a command, which takes it. -/
theorem exec_command (d : DueStep) (s : State) : exec d.command s = .next (takeDue d s) := by
  cases d <;> rfl

theorem exec_restartReset_of_due {s : State} (hrun : s.resetPhase = .running) (hr : s.restartDue = true) :
    exec .restartReset s = .next (settle s) := congrArg _ (if_pos ⟨hrun, hr⟩)

/-- A part without supply or held in reset has no step to take. -/
theorem takeDue_of_not_running {s : State} (h : s.resetPhase ≠ .running) (d : DueStep) : takeDue d s = s :=
  if_neg fun hdue => h hdue.1

/-- A part without supply or held in reset takes the commands of supply and reset and the line's edges alone
(R164, assumptions 9, 18). -/
theorem exec_of_not_running {c : Instr} {s : State} (hidle : c.reachesIdlePart = false)
    (h : s.resetPhase ≠ .running) : exec c s = .next s := by
  cases hc : c.settlesFirst with
  | true =>
    obtain ⟨f, hf⟩ := exec_eq_whenRunning hc hidle
    rw [hf, whenRunning_of_not_running h]
  | false =>
    cases c with
    | restartReset => exact congrArg _ (if_neg fun hrun => h hrun.1)
    | listenPeriodEnd | rejoin | peerLost | peerPurge | announcementDue | holdLimitPassed =>
      exact congrArg Host.Outcome.next (takeDue_of_not_running h _)
    | resetRelease => exact nomatch hidle
    | _ => exact nomatch hc

/-- Settles O3: a command's settling is that of its own shape, and each due step is the one that `settle`
takes next. -/
theorem dueWorkComesBeforeOtherCommands : Obligations.DueWorkComesBeforeOtherCommands := by
  unfold Obligations.DueWorkComesBeforeOtherCommands
  refine ⟨fun c s hc h => ⟨settle_calm h, exec_settle hc h⟩, fun s d rest h hdue => ?step,
    fun s hrun hdue hr => ?restart, fun s h => settle_of_calm h, fun c s hc h => exec_of_not_running hc h⟩
  case step =>
    exact ⟨takeDue d s, exec_command d s, takeDue_due h hdue, by simp [h], settle_of_due h hdue⟩
  case restart =>
    refine ⟨exec_restartReset_of_due hrun hr, ?_⟩
    rw [settle_of_restart hdue hr]
    exact ⟨rfl, rfl⟩

/-! ### The reset of a RESTART -/

/-- Settles O10: with nothing else due, settling is the reset. -/
theorem restartResetKeepsNumberStrapsAndFaults : Obligations.RestartResetKeepsNumberStrapsAndFaults := by
  unfold Obligations.RestartResetKeepsNumberStrapsAndFaults
  refine ⟨fun s hrun hdue hr => ?_, fun s hr => congrArg _ (if_neg fun hdue => ?_)⟩
  · rw [exec_restartReset_of_due hrun hr, settle_of_restart hdue hr]
    rfl
  · exact Bool.false_ne_true (hr.symm.trans hdue.2)

end Sys2Proof.Machine
end

section
/-! PROOFS. The beginning of the load: the EEPROM's answer and the header (R167 to R170). -/

namespace Sys2Proof.Machine

/-! ### The EEPROM's answer (R168) -/

theorem waitingSince_of_waiting {s : State} {since : Nat} (h : s.loader.phase = .waiting since) :
    s.waitingSince = some since := by
  simp [State.waitingSince, h]

/-- The loader moves on by the first byte alone. -/
theorem eepromReady_eq (s : State) : eepromReady s = { s with
    loader := if s.eeprom.read 0 = 0xFF then
        { s.loader with cycle := none, phase := .ended, record := { s.loader.record with blank := true } }
      else { s.loader with cycle := none, phase := .header } } := by
  by_cases hblank : s.eeprom.read 0 = 0xFF
  · rw [if_pos hblank]; exact if_pos hblank
  · rw [if_neg hblank]; exact if_neg hblank

theorem exec_eepromAcknowledge_of_waiting {s : State} {since : Nat} (h : s.calm)
    (hw : s.loader.phase = .waiting since) (t : Nat) :
    exec (.eepromAcknowledge t) s = .next (refreshTx (eepromReady (advanceTo t s))) := by
  have hphase : (advanceTo t s).loader.phase = .waiting since := by simp [hw]
  refine congrArg _ ((atTime_of_calm h t _).trans ?_)
  simp [waitingSince_of_waiting hphase]

theorem exec_eepromReadyTimeout_of_waiting {s : State} {since : Nat} (h : s.calm)
    (hw : s.loader.phase = .waiting since) :
    exec .eepromReadyTimeout s = .next (refreshTx (blankImage (advanceTo (since + 20000000) s))) :=
  congrArg _ (atDeadline_of_calm h (by simp [waitingSince_of_waiting hw, Config.millisecond]) _)

/-- Settles O11: by what the loader makes of the first byte. -/
theorem eepromAnswersOrImageIsBlank : Obligations.EepromAnswersOrImageIsBlank := by
  unfold Obligations.EepromAnswersOrImageIsBlank
  refine fun s since h hw => ⟨fun t => ?acknowledged, ?late⟩
  case acknowledged =>
    rw [exec_eepromAcknowledge_of_waiting h hw, eepromReady_eq]
    simp
  case late =>
    rw [exec_eepromReadyTimeout_of_waiting h hw, blankImage]
    simp [State.setLoader]

/-! ### The header's check (R169, R170) -/

theorem headerGood_iff (m : Memory) : headerGood m = true
    ↔ m.word 0 = 0x6A24 ∧ m.read 2 = 1 ∧ m.word 62 = m.sum 0 31 := by
  have hversion : (m.read 2).toNat = 1 ↔ m.read 2 = 1 := BitVec.toNat_inj (y := 1)
  simp [headerGood, hversion, and_assoc]

/-- A header that passes is kept with its clamped fields, and its clamps are counted (R170). -/
theorem checkHeader_of_good {s : State} (h : headerGood s.eeprom = true) : checkHeader s = { s with
    loader := { s.loader with
      checks := s.loader.checks.set 0 .passed, header := some (readHeader s.eeprom), phase := .sections 1,
      record := { s.loader.record with
        clamped := min 255 (s.loader.record.clamped + headerClamps s.eeprom) } } } := if_pos h

/-- A header that fails, the first of the image to do so, ends the load and is reported (R169). -/
theorem checkHeader_of_bad {s : State} (h : ¬ headerGood s.eeprom = true)
    (hfirst : s.loader.record.checkFail = none) : checkHeader s = { s with
    loader := { s.loader with
      checks := s.loader.checks.set 0 .failed, phase := .ended,
      record := { s.loader.record with checkFail := some 0 } },
    faults := s.faults.report
      { kind := .imageCheck, frame := s.timer.number, state := s.life.state, detail := 0 } } := by
  rw [checkHeader, if_neg h, State.recordCheck]
  simp only [State.setLoader_loader, hfirst]
  rfl

theorem exec_headerCheck_of_header {s : State} (h : s.calm) (hp : s.loader.phase = .header) (t : Nat) :
    exec (.headerCheck t) s = .next (refreshTx (checkHeader (advanceTo t s))) := by
  have hphase : (advanceTo t s).loader.phase = .header := by simp [hp]
  exact congrArg Host.Outcome.next ((atTime_of_calm h t _).trans (congrArg refreshTx (if_pos hphase)))

/-- Settles O12: by the outcome of the header's check. -/
theorem headerCheckSettlesSectionZero : Obligations.HeaderCheckSettlesSectionZero := by
  unfold Obligations.HeaderCheckSettlesSectionZero
  refine fun t s h hp => ⟨fun hgood => ?passed, fun hbad hfirst => ?failed⟩
  all_goals
    rw [exec_headerCheck_of_header h hp]
  case passed =>
    rw [← headerGood_iff] at hgood
    rw [checkHeader_of_good (by simpa using hgood)]
    simp
  case failed =>
    rw [← headerGood_iff] at hbad
    rw [checkHeader_of_bad (by simpa using hbad) (by simpa using hfirst)]
    simp

/-! ### The header's fields (R167, R170) -/

/-- No two clamped fields lie at one offset. -/
theorem find?_clampedFields {f : FieldSpec} (h : f ∈ clampedFields) :
    clampedFields.find? (fun g => g.offset == f.offset) = some f :=
  (by decide : ∀ f ∈ clampedFields, clampedFields.find? (fun g => g.offset == f.offset) = some f) f h

theorem lo_le_hi_of_clampedFields {f : FieldSpec} (h : f ∈ clampedFields) : f.lo ≤ f.hi :=
  (by decide : ∀ f ∈ clampedFields, f.lo ≤ f.hi) f h

/-- A field of R167's table reads as stored, set to the nearer end of its range. -/
theorem headerField_of_mem {f : FieldSpec} (h : f ∈ clampedFields) (m : Memory) :
    headerField m f.offset = max f.lo (min f.hi (f.raw m)) := by
  rw [headerField, find?_clampedFields h]
  rfl

/-- Every field of R167's table lies in its range. -/
theorem headerField_bounds {f : FieldSpec} (h : f ∈ clampedFields) (m : Memory) :
    f.lo ≤ headerField m f.offset ∧ headerField m f.offset ≤ f.hi := by
  have hrange := lo_le_hi_of_clampedFields h
  rw [headerField_of_mem h]
  omega

theorem bitOf_toNat (b : Byte) (i : Nat) : bitOf b.toNat i = b.getLsbD i :=
  (Nat.testBit_eq_decide_div_mod_eq ..).symm

theorem headerClamps_eq (m : Memory) : headerClamps m
    = (clampedFields.filter fun f => f.raw m < f.lo || f.hi < f.raw m).length :=
  List.countP_eq_length_filter ..

/-- Settles O13: the header is read field by field through R167's table. -/
theorem headerFieldsLieInTheirRanges : Obligations.HeaderFieldsLieInTheirRanges := by
  unfold Obligations.HeaderFieldsLieInTheirRanges
  refine fun m => ⟨fun h hh => ⟨?fields, ?dither, ?four, fun k hk => ?enables, ?dark, ?sums⟩,
    fun h hh => ?ranges, fun f hf => ?clamped, headerClamps_eq m, rfl⟩
  case fields =>
    subst hh
    simp only [readHeader]
    and_intros <;> rfl
  case dither =>
    have hfield : headerField m 33 = min 3 (m.read 33).toNat := Nat.zero_max _
    rw [hh, readHeader, hfield]
    rfl
  case four => rw [hh]; rfl
  case enables =>
    have hbits : h.enables = (List.range 4).map fun i => (m.read 34).getLsbD i := by
      simp only [← bitOf_toNat]
      rw [hh]
      rfl
    simp [hbits, List.getD_eq_getElem?_getD, hk]
  case dark => rw [hh]; exact bitOf_toNat (m.read 36) 0
  case sums => rw [hh]; rfl
  case ranges =>
    have hbounds : ∀ f ∈ clampedFields, f.lo ≤ headerField m f.offset ∧ headerField m f.offset ≤ f.hi :=
      fun f hf => headerField_bounds hf m
    subst hh
    simp only [clampedFields, List.forall_mem_cons] at hbounds
    simp only [readHeader]
    omega
  case clamped =>
    have hrange := lo_le_hi_of_clampedFields hf
    rw [headerField_of_mem hf]
    omega

end Sys2Proof.Machine
end

section
/-! PROOFS. A STORE's write to the EEPROM, and what a loss of supply leaves of it (R174 to R176). -/

namespace Sys2Proof.Machine

/-! ### The order (R174) -/

theorem actStore_of_refused {o : Order} {s : State} {r : OrderResult}
    (h : storeResult s (wordAt o.args 0) = r) (hr : r ≠ .done) : actStore o s = refuse r s := by
  unfold actStore
  rw [h]
  cases r with
  | done => exact absurd rfl hr
  | _ => rfl

theorem actStore_of_done {o : Order} {s : State} (h : storeResult s (wordAt o.args 0) = .done) :
    actStore o s = carriedOut (beginStore (wordAt o.args 0) (o.args.drop 2) s) := by
  simp only [actStore, h]

/-- A STORE is answered by its tests in their order. -/
theorem answerOrder_actStore (o : Order) (s : State) :
    answerOrder o (actStore o s).result (actStore o s).bytes (actStore o s).after =
      if wordAt o.args 0 % 32 ≠ 0 then answerOrder o .badArg [] s
      else if s.loader.storeInFlight = true then answerOrder o .busy [] s
      else if 65536 - 256 * s.settings.hdr.lockCount ≤ wordAt o.args 0 then answerOrder o .locked [] s
      else answerOrder o .done [] (beginStore (wordAt o.args 0) (o.args.drop 2) s) := by
  by_cases hoff : wordAt o.args 0 % 32 ≠ 0
  · rw [actStore_of_refused (if_pos hoff) nofun]
    exact (if_pos hoff).symm
  rw [if_neg hoff]
  by_cases hbusy : s.loader.storeInFlight = true
  · rw [actStore_of_refused ((if_neg hoff).trans (if_pos hbusy)) nofun]
    exact (if_pos hbusy).symm
  rw [if_neg hbusy]
  by_cases hlocked : 65536 - 256 * s.settings.hdr.lockCount ≤ wordAt o.args 0
  · rw [actStore_of_refused ((if_neg hoff).trans ((if_neg hbusy).trans (if_pos hlocked))) nofun]
    exact (if_pos hlocked).symm
  · rw [actStore_of_done ((if_neg hoff).trans ((if_neg hbusy).trans (if_neg hlocked)))]
    exact (if_neg hlocked).symm

/-! ### The write (R175, R176) -/

theorem endTransfer_of_none {s : State} (h : s.loader.transfer = none) : endTransfer s = s := by
  simp [endTransfer, h]

theorem endTransfer_of_transfer {s : State} {w : StoreWrite} (h : s.loader.transfer = some w) :
    endTransfer s = { s with
      eeprom := s.eeprom.writeBlock w.address w.bytes,
      loader := { s.loader with
        transfer := none,
        cycle := some { address := w.address, bytes := s.eeprom.readBlock w.address w.bytes.length } } } := by
  simp [endTransfer, h, State.setEeprom, State.setLoader]

/-- The flag clears with the EEPROM's cycle over. -/
theorem clearStoreFlag_of_none {s : State} (h : s.loader.transfer = none) : clearStoreFlag s = { s with
    loader := { s.loader with storeInFlight := false, cycle := none } } := by
  rw [clearStoreFlag, endTransfer_of_none h]
  rfl

/-- A transfer still noted when the flag clears has ended by then (R175). -/
theorem clearStoreFlag_of_transfer {s : State} {w : StoreWrite} (h : s.loader.transfer = some w) :
    clearStoreFlag s = { s with
      eeprom := s.eeprom.writeBlock w.address w.bytes,
      loader := { s.loader with storeInFlight := false, transfer := none, cycle := none } } := by
  rw [clearStoreFlag, endTransfer_of_transfer h]
  rfl

theorem storeDeadline_of_clear {s : State} (h : s.loader.storeInFlight = false) : s.storeDeadline = none := by
  simp [State.storeDeadline, h]

theorem storeDeadline_of_inFlight {s : State} (h : s.loader.storeInFlight = true) :
    s.storeDeadline = some (s.loader.storeBegan + 5000000) := by
  simp [State.storeDeadline, h, Config.millisecond]

theorem exec_storeTransferEnd_of_calm {s : State} (h : s.calm) (t : Nat) :
    exec (.storeTransferEnd t) s = .next (refreshTx (endTransfer (advanceTo t s))) :=
  congrArg _ (atTime_of_calm h t _)

theorem exec_storeFlagClear_of_inFlight {s : State} (h : s.calm) (hf : s.loader.storeInFlight = true) :
    exec .storeFlagClear s
      = .next (refreshTx (clearStoreFlag (advanceTo (s.loader.storeBegan + 5000000) s))) :=
  congrArg _ (atDeadline_of_calm h (storeDeadline_of_inFlight hf) _)

/-- Settles O44: the order by its tests, the transfer's end by the laws of a block write, the flag by its
deadline. -/
theorem storeWritesThirtyTwoBytes : Obligations.StoreWritesThirtyTwoBytes := by
  unfold Obligations.StoreWritesThirtyTwoBytes
  refine ⟨fun s p o ho hlen hp => ?order, fun t s h hwf => ⟨fun hnone => ?idle, fun w hw => ?written⟩,
    fun s h => ⟨fun hclear => ?clear, fun hflight hnone => ?ended, fun w hflight hw => ?late⟩⟩
  case order =>
    have hcode := code_of_ordered ho rfl
    have hpop : popQueue s = p := hp.symm
    have hrun := whenRunning_settleOrder ho (by rw [hlen, hcode]; rfl) actStore
    rw [hpop, answerOrder_actStore] at hrun
    subst hp
    exact congrArg Host.Outcome.next hrun
  case idle => rw [exec_storeTransferEnd_of_calm h, endTransfer_of_none (by simpa using hnone)]
  case written =>
    refine ⟨s.eeprom.writeBlock w.address w.bytes, ?_, Memory.wf_writeBlock _ _ _ hwf,
      fun i hi => Memory.read_writeBlock_inside _ _ _ _ hwf hi,
      fun a ha => Memory.read_writeBlock_outside _ _ _ _ hwf ha⟩
    rw [exec_storeTransferEnd_of_calm h, endTransfer_of_transfer (by simpa using hw)]
    simp
  case clear => exact congrArg _ (atDeadline_of_none h (storeDeadline_of_clear hclear) _)
  case ended =>
    rw [exec_storeFlagClear_of_inFlight h hflight, clearStoreFlag_of_none (by simpa using hnone)]
    simp
  case late =>
    rw [exec_storeFlagClear_of_inFlight h hflight, clearStoreFlag_of_transfer (by simpa using hw)]
    simp

/-! ### A write that is cut (R176) -/

/-- Each bit of a byte whose write was cut is that of one of the two bytes. -/
theorem getLsbD_mixedByte (draw offset : Nat) (old new : Byte) (j : Nat) :
    (mixedByte draw offset old new).getLsbD j = old.getLsbD j
      ∨ (mixedByte draw offset old new).getLsbD j = new.getLsbD j := by
  simp only [mixedByte, BitVec.getLsbD_or, BitVec.getLsbD_and, BitVec.getLsbD_not]
  by_cases hj : j < 8
  · cases (Config.powerLossMask draw offset).getLsbD j <;> simp [hj]
  · simp [BitVec.getLsbD_of_ge _ _ (Nat.le_of_not_lt hj)]

/-- The bytes of a cut write are those of its two blocks mixed, address by address. -/
theorem getElem?_mixedBytes {draw : Nat} {as bs : List Byte} {i k : Nat} {b : Byte}
    (h : (mixedBytes draw i as bs)[k]? = some b) :
    ∃ x y, as[k]? = some x ∧ bs[k]? = some y ∧ b = mixedByte draw (i + k) x y := by
  induction as generalizing i k bs with
  | nil => simp [mixedBytes] at h
  | cons a as ih =>
    cases bs with
    | nil => simp [mixedBytes] at h
    | cons c bs =>
      cases k with
      | zero => exact ⟨a, c, rfl, rfl, (Option.some.inj h).symm⟩
      | succ k =>
        have hrest : (mixedBytes draw (i + 1) as bs)[k]? = some b := h
        obtain ⟨x, y, hx, hy, hb⟩ := ih hrest
        exact ⟨x, y, hx, hy, by rw [hb, Nat.add_assoc, Nat.add_comm 1]⟩

theorem Memory.getElem?_readBlock {m : Memory} {a n i : Nat} {b : Byte} (h : (m.readBlock a n)[i]? = some b) :
    b = m.read (a + i) := by
  simp only [Memory.readBlock, List.getElem?_map, Option.map_eq_some_iff, List.getElem?_eq_some_iff] at h
  obtain ⟨k, ⟨hk, hi⟩, hb⟩ := h
  simp_all

/-- Every bit of the memory u is m's, or that of the byte which the write puts at its address. -/
def Memory.BitsFrom (u m : Memory) (write : Option StoreWrite) : Prop := ∀ a j,
  (u.read a).getLsbD j = (m.read a).getLsbD j
    ∨ ∃ w ∈ write, ∃ b i, a = w.address + i ∧ w.bytes[i]? = some b ∧ (u.read a).getLsbD j = b.getLsbD j

theorem Memory.BitsFrom.refl (m : Memory) (write : Option StoreWrite) : m.BitsFrom m write :=
  fun _ _ => .inl rfl

/-- The bytes of a block and those that it replaces, mixed in either order. -/
theorem Memory.BitsFrom.of_mixed {m : Memory} (hm : m.wf) {w : StoreWrite} (draw : Nat) {xs ys : List Byte}
    (h : xs = w.bytes ∧ ys = m.readBlock w.address w.bytes.length
      ∨ xs = m.readBlock w.address w.bytes.length ∧ ys = w.bytes) :
    (m.writeBlock w.address (mixedBytes draw 0 xs ys)).BitsFrom m (some w) := fun a j => by
  by_cases ha : w.address ≤ a ∧ a < w.address + (mixedBytes draw 0 xs ys).length
  · obtain ⟨i, rfl⟩ := Nat.exists_eq_add_of_le ha.1
    have hi : i < (mixedBytes draw 0 xs ys).length := by omega
    obtain ⟨x, y, hx, hy, hmix⟩ := getElem?_mixedBytes (List.getElem?_eq_getElem hi)
    rw [Memory.read_writeBlock_inside _ _ _ _ hm hi, hmix]
    rcases h with ⟨rfl, rfl⟩ | ⟨rfl, rfl⟩
    · rw [Memory.getElem?_readBlock hy]
      exact (getLsbD_mixedByte ..).symm.imp id fun hbit => ⟨w, rfl, x, i, rfl, hx, hbit⟩
    · rw [Memory.getElem?_readBlock hx]
      exact (getLsbD_mixedByte ..).imp id fun hbit => ⟨w, rfl, y, i, rfl, hy, hbit⟩
  · rw [Memory.read_writeBlock_outside _ _ _ _ hm (by omega)]
    exact .inl rfl

/-- The EEPROM after its own write cycle has been cut: the bytes that the cycle replaces may be back. -/
def Memory.cycleCut (m : Memory) (draw : Nat) : Option StoreWrite → Memory
  | some w => m.writeBlock w.address (mixedBytes draw 0 w.bytes (m.readBlock w.address w.bytes.length))
  | none => m

/-- The EEPROM after a transfer has been cut: the bytes that it brings may have come. -/
def Memory.transferCut (m : Memory) (draw : Nat) : Option StoreWrite → Memory
  | some w => m.writeBlock w.address (mixedBytes draw 0 (m.readBlock w.address w.bytes.length) w.bytes)
  | none => m

theorem cutWrites_eq (s : State) : cutWrites s
    = (s.eeprom.cycleCut s.draws s.loader.cycle).transferCut (s.draws + 1) s.loader.transfer := by
  unfold cutWrites
  cases s.loader.cycle <;> cases s.loader.transfer <;> rfl

theorem Memory.wf_cycleCut {m : Memory} (hm : m.wf) (draw : Nat) (write : Option StoreWrite) :
    (m.cycleCut draw write).wf := by
  cases write with
  | none => exact hm
  | some w => exact Memory.wf_writeBlock _ _ _ hm

theorem Memory.bitsFrom_cycleCut {m : Memory} (hm : m.wf) (draw : Nat) (write : Option StoreWrite) :
    (m.cycleCut draw write).BitsFrom m write := by
  cases write with
  | none => exact .refl m none
  | some w => exact .of_mixed hm draw (.inl ⟨rfl, rfl⟩)

theorem Memory.bitsFrom_transferCut {m : Memory} (hm : m.wf) (draw : Nat) (write : Option StoreWrite) :
    (m.transferCut draw write).BitsFrom m write := by
  cases write with
  | none => exact .refl m none
  | some w => exact .of_mixed hm draw (.inr ⟨rfl, rfl⟩)

/-- The writes that a loss of supply cuts. -/
def Loader.cuts (l : Loader) (w : StoreWrite) : Prop := l.transfer = some w ∨ l.cycle = some w

/-- Each bit after a loss of supply is the EEPROM's, or one that a write in flight brings or replaces (R176). -/
theorem getLsbD_cutWrites {s : State} (hwf : s.eeprom.wf) (a j : Nat) :
    ((cutWrites s).read a).getLsbD j = (s.eeprom.read a).getLsbD j
      ∨ ∃ w b i, s.loader.cuts w ∧ a = w.address + i ∧ w.bytes[i]? = some b
        ∧ ((cutWrites s).read a).getLsbD j = b.getLsbD j := by
  rw [cutWrites_eq]
  rcases Memory.bitsFrom_transferCut (Memory.wf_cycleCut hwf s.draws s.loader.cycle) (s.draws + 1)
      s.loader.transfer a j with hbit | ⟨w, hw, b, i, ha, hb, hbit⟩
  · rw [hbit]
    exact (Memory.bitsFrom_cycleCut hwf s.draws s.loader.cycle a j).imp id
      fun ⟨w, hw, b, i, ha, hb, hbit⟩ => ⟨w, b, i, .inr hw, ha, hb, hbit⟩
  · exact .inr ⟨w, b, i, .inl hw, ha, hb, hbit⟩

/-- An address that no write in flight has keeps its byte: no bit of it can be another's. -/
theorem read_cutWrites_outside {s : State} (hwf : s.eeprom.wf) {a : Nat}
    (h : ∀ w, s.loader.cuts w → a < w.address ∨ w.address + w.bytes.length ≤ a) :
    (cutWrites s).read a = s.eeprom.read a := by
  refine BitVec.eq_of_getLsbD_eq fun j _ => ?_
  rcases getLsbD_cutWrites hwf a j with hbit | ⟨w, b, i, hw, rfl, hb, -⟩
  · exact hbit
  · have hi : i < w.bytes.length := (List.getElem?_eq_some_iff.1 hb).1
    have hout := h w hw
    omega

/-! ### The loss of supply (R176) -/

/-- With no write in flight there is none to cut. -/
theorem losePower_eeprom (s : State) : (losePower s).eeprom = cutWrites s := by
  rw [cutWrites_eq]
  unfold losePower State.writeInFlight
  split
  · exact cutWrites_eq s
  · simp_all [Memory.cycleCut, Memory.transferCut]

theorem losePower_cycle (s : State) : (losePower s).loader.cycle = none := by
  unfold losePower State.writeInFlight
  split <;> simp_all

/-- A reset of a RESTART that settling takes is one that no transfer holds (R176, R182). -/
theorem settle_transfer (s : State) : (settle s).loader.transfer = s.loader.transfer := by
  obtain ⟨-, -, -, -, -, -, hloader, -⟩ := foldl_takeDue s.due s
  unfold settle
  dsimp only
  split
  next hr =>
    have hnone : s.loader.transfer = none := by
      simp only [State.restartDue, hloader, Bool.and_eq_true, Option.isNone_iff_eq_none] at hr
      exact hr.2
    rw [hnone]
    rfl
  next => rw [hloader]

theorem runTo_transfer (t : Nat) (s : State) : (runTo t s).loader.transfer = s.loader.transfer := by
  unfold runTo
  split <;> simp [settle_transfer]

theorem cutWrites_runTo (t : Nat) (s : State) : cutWrites (runTo t s) = cutWrites s := by
  have halike := runTo_resetAlike t s
  rw [cutWrites_eq, cutWrites_eq, halike.eeprom, halike.draws, halike.cycle, runTo_transfer]

/-- Settles O9: what the part held is at its reset value, and the EEPROM is as the cut writes leave it. -/
theorem powerLossTouchesOnlyThePageInFlight : Obligations.PowerLossTouchesOnlyThePageInFlight := by
  unfold Obligations.PowerLossTouchesOnlyThePageInFlight
  intro t s hsupplied hwf
  refine ⟨_, exec_powerLost_of_supplied hsupplied t, rfl, rfl, rfl, losePower_cycle (runTo t s), rfl, rfl,
    rfl, ?_⟩
  have heeprom : ((resetBlocks .power (losePower (runTo t s))).setResetPhase .unpowered).eeprom
      = cutWrites s := (losePower_eeprom (runTo t s)).trans (cutWrites_runTo t s)
  rw [heeprom]
  refine ⟨fun htransfer hcycle => ?_, fun a ha => read_cutWrites_outside hwf ha,
    fun a j _ => getLsbD_cutWrites hwf a j⟩
  rw [cutWrites_eq, htransfer, hcycle]
  rfl

end Sys2Proof.Machine
end

section
/-! PROOFS. What the Fault Unit holds may grow, and no more than grow, until it is cleared (R183, R184, R186): the
first fault reported stays, and no count falls. -/

namespace Sys2Proof.Machine

/-! ### What a report and a count do -/

/-- What the Fault Unit `f` may have become: a filled record stands, and each count is no lower and no more than its
cap. -/
structure FaultUnit.GrowsTo (f g : FaultUnit) : Prop where
  record : ∀ r, f.record = some r → g.record = some r
  overflow : f.overflow ≤ min 255 g.overflow
  counters : ∀ i, f.counters.values.getD i 0 ≤ min 65535 (g.counters.values.getD i 0)

/-- A count raises the one value at its own place: the counters are named in the order of R186's table. -/
theorem CounterBlock.values_raise (b : CounterBlock) (c : Counter) :
    (b.raise c).values = b.values.modify c.ctorIdx (satInc 65535) := by
  cases c <;> rfl

/-- No value falls below its cap by a count. -/
theorem CounterBlock.le_values_raise (b : CounterBlock) (c : Counter) (i : Nat) :
    min 65535 (b.values.getD i 0) ≤ (b.raise c).values.getD i 0 := by
  rw [b.values_raise c, List.getD_eq_getElem?_getD, List.getD_eq_getElem?_getD, List.getElem?_modify]
  cases b.values[i]? with
  | none => simp
  | some v =>
    simp only [Option.map_eq_map, Option.map_some, Option.getD_some, satInc]
    split <;> omega

/-- A unit within its bounds has grown to itself. -/
theorem WithinBounds.growsTo {s : State} (h : WithinBounds s) : s.faults.GrowsTo s.faults := by
  obtain ⟨-, hcounters, hoverflow, -, -⟩ := h
  refine ⟨fun _ hr => hr, by omega, fun i => ?_⟩
  have hle : s.faults.counters.values.getD i 0 ≤ 65535 := by
    rw [List.getD_eq_getElem?_getD]
    cases hi : s.faults.counters.values[i]? with
    | none => simp
    | some v => exact hcounters v (List.mem_of_getElem? hi)
  omega

section Grows

variable {f : FaultUnit} {s : State}

/-- A report leaves a filled record, and raises the overflow count at most (R184). -/
@[simp] theorem FaultUnit.GrowsTo.report {g : FaultUnit} (h : f.GrowsTo g) (r : FaultRecord) :
    f.GrowsTo (g.report r) := by
  obtain ⟨hrecord, hoverflow, hcounters⟩ := h
  rcases g.report_cases r with ⟨hnone, he⟩ | ⟨q, -, he⟩
  · rw [he]
    refine ⟨fun k hk => ?_, hoverflow, hcounters⟩
    simp [hrecord k hk] at hnone
  · rw [he]
    refine ⟨hrecord, ?_, hcounters⟩
    simp only [satInc]
    omega

/-- A count raises a counter at most (R186). -/
@[simp] theorem FaultUnit.GrowsTo.raise {g : FaultUnit} (h : f.GrowsTo g) (c : Counter) :
    f.GrowsTo { g with counters := g.counters.raise c } := by
  obtain ⟨hrecord, hoverflow, hcounters⟩ := h
  refine ⟨hrecord, hoverflow, fun i => ?_⟩
  have hfrom := hcounters i
  have hraise := g.counters.le_values_raise c i
  dsimp only
  omega

/-! ### The operations that count or report -/

@[simp] theorem cutRaster_growsTo (h : f.GrowsTo s.faults) : f.GrowsTo (cutRaster s).faults := by
  unfold cutRaster
  split <;> simp [h]

@[simp] theorem presenterChoice_growsTo (h : f.GrowsTo s.faults) : f.GrowsTo (presenterChoice s).faults := by
  unfold presenterChoice
  (repeat' split) <;> simp [h]

theorem frameMark_growsTo (h : f.GrowsTo s.faults) : f.GrowsTo (frameMark s).faults := by
  rw [frameMark_faults]
  simp [h]

theorem checkZone_growsTo (h : f.GrowsTo s.faults) (n i : Nat) : f.GrowsTo (checkZone n s i).faults := by
  unfold checkZone
  (repeat' (first | split | (dsimp only; split))) <;> simp [h]

@[simp] theorem shapeAgreement_growsTo (h : f.GrowsTo s.faults) (n : Nat) :
    f.GrowsTo (shapeAgreement n s).faults := by
  unfold shapeAgreement
  induction List.range 8 generalizing s with
  | nil => exact h
  | cons i l ih => exact ih (checkZone_growsTo h n i)

@[simp] theorem offerFrame_growsTo (h : f.GrowsTo s.faults) (n : FrameNo) (straddle : Bool) :
    f.GrowsTo (offerFrame n straddle s).faults := by
  unfold offerFrame
  (repeat' split) <;> simp [h]

@[simp] theorem applyStatus_growsTo (h : f.GrowsTo s.faults) (n : Nat) (b : StatusBody) (straddle : Bool) :
    f.GrowsTo (applyStatus n b straddle s).faults := by
  simp [applyStatus, h]

@[simp] theorem applyNotice_growsTo (h : f.GrowsTo s.faults) (n : Nat) (kind : HandoverKind) (b : NoticeBody)
    (straddle : Bool) : f.GrowsTo (applyNotice n kind b straddle s).faults := by
  simp [applyNotice, h]

/-! ### The link, the scan and the line -/

@[simp] theorem truncateFrame_growsTo (h : f.GrowsTo s.faults) : f.GrowsTo (truncateFrame s).faults := by
  unfold truncateFrame
  split <;> simp [h]

theorem takeFrameStart_growsTo (h : f.GrowsTo s.faults) : f.GrowsTo (takeFrameStart s).faults := by
  unfold takeFrameStart
  dsimp only
  (repeat' split) <;> simp [h]

theorem makeRoom_growsTo (h : f.GrowsTo s.faults) : f.GrowsTo (makeRoom s).faults := by
  unfold makeRoom
  (repeat' split) <;> simp [h]

theorem takeFrameEnd_growsTo (h : f.GrowsTo s.faults) : f.GrowsTo (takeFrameEnd s).faults := by
  unfold takeFrameEnd
  (repeat' split)
  · exact h
  · simp [completeFrame_eq, makeRoom_growsTo h]
  · exact truncateFrame_growsTo h

theorem loseInput_growsTo (h : f.GrowsTo s.faults) : f.GrowsTo (loseInput s).faults :=
  truncateFrame_growsTo (s := s.setInput _) h

theorem holdTest_growsTo (h : f.GrowsTo s.faults) : f.GrowsTo (holdTest s).faults := by
  unfold holdTest
  split <;> simp [h]

@[simp] theorem lampTest_growsTo (h : f.GrowsTo s.faults) : f.GrowsTo (lampTest s).faults := by
  unfold lampTest
  (repeat' (first | split | (dsimp only; split))) <;> simp [raiseLampLow, h]

@[simp] theorem thermalTest_growsTo (h : f.GrowsTo s.faults) : f.GrowsTo (thermalTest s).faults := by
  unfold thermalTest
  (repeat' (first | split | (dsimp only; split))) <;> simp [raiseThermal, h]

theorem finishScan_growsTo (h : f.GrowsTo s.faults) (codes : List (BitVec 12)) :
    f.GrowsTo (finishScan codes s).faults := by
  unfold finishScan completeScan
  (repeat' split) <;> simp [h]

theorem takeFall_growsTo (h : f.GrowsTo s.faults) : f.GrowsTo (takeFall s).faults := by
  cases hline : s.timer.lineState with
  | stuck => rw [takeFall_of_stuck hline]; exact h
  | normal =>
    rw [takeFall_of_normal hline]
    split
    · exact frameMark_growsTo h
    · exact h.raise .early

theorem takeExpiry_growsTo (h : f.GrowsTo s.faults) : f.GrowsTo (takeExpiry s).faults := by
  cases hline : s.timer.lineState with
  | stuck => rw [takeExpiry_of_stuck hline]; exact frameMark_growsTo h
  | normal =>
    by_cases hsleep : s.life.state = .sleep
    · rw [takeExpiry_of_sleep hline hsleep]; exact h
    · rw [takeExpiry_of_awake hline hsleep]; exact h

theorem becomeStuck_growsTo (h : f.GrowsTo s.faults) : f.GrowsTo (becomeStuck s).faults := by
  simp [becomeStuck, h]

/-! ### The load -/

@[simp] theorem recordCheck_growsTo (h : f.GrowsTo s.faults) (k : Nat) (passed : Bool) :
    f.GrowsTo (s.recordCheck k passed).faults := by
  unfold State.recordCheck
  dsimp only
  (repeat' split) <;> simp [h]

theorem checkHeader_growsTo (h : f.GrowsTo s.faults) : f.GrowsTo (checkHeader s).faults := by
  unfold checkHeader
  dsimp only
  split <;> simp [h]

theorem checkSection_growsTo (h : f.GrowsTo s.faults) : f.GrowsTo (checkSection s).faults := by
  unfold checkSection
  split
  · dsimp only
    (repeat' split) <;> simp [h]
  · exact h

theorem reportBadZones_growsTo (h : f.GrowsTo s.faults) (p : Nat → Bool) (l : List Nat) :
    f.GrowsTo (l.foldl (fun t i => if p i then t.report .zoneConfig i else t) s).faults := by
  induction l generalizing s with
  | nil => exact h
  | cons i l ih =>
    refine ih ?_
    dsimp only
    split <;> simp [h]

@[simp] theorem loadZones_growsTo (h : f.GrowsTo s.faults) : f.GrowsTo (loadZones s).faults := by
  unfold loadZones
  split
  · exact reportBadZones_growsTo (by simpa using h) _ _
  · exact h

theorem finishLoad_growsTo (h : f.GrowsTo s.faults) : f.GrowsTo (finishLoad s).faults := by
  unfold finishLoad
  dsimp only
  (repeat' split) <;> simp [h]

/-! ### The bus -/

@[simp] theorem breakMessage_growsTo (h : f.GrowsTo s.faults) : f.GrowsTo (breakMessage s).faults := by
  simp [breakMessage, h]

theorem keepMessage_growsTo (h : f.GrowsTo s.faults) (m : Message) : f.GrowsTo (keepMessage m s).faults := by
  unfold keepMessage
  (repeat' split)
  · exact h.raise _
  · exact h.report _
  · exact h
  · exact h
  · exact (h.report _).raise _
  · exact h

theorem completeMessage_growsTo (h : f.GrowsTo s.faults) (a : Assembly) (check : Byte) :
    f.GrowsTo (completeMessage a check s).faults := by
  unfold completeMessage
  dsimp only
  (repeat' split)
  · exact h.raise _
  · exact h.raise _
  · exact keepMessage_growsTo (s := dropAssembly s) h _

theorem extendMessage_growsTo (h : f.GrowsTo s.faults) (a : Assembly) (d : Byte) :
    f.GrowsTo (extendMessage a d s).faults := by
  unfold extendMessage
  (repeat' split)
  · exact breakMessage_growsTo h
  · exact h
  · exact h
  · exact completeMessage_growsTo h a d

@[simp] theorem breakIfAny_growsTo (h : f.GrowsTo s.faults) : f.GrowsTo (breakIfAny s).faults := by
  unfold breakIfAny
  split <;> simp [h]

theorem assemble_growsTo (h : f.GrowsTo s.faults) (ch : Character) : f.GrowsTo (assemble ch s).faults := by
  unfold assemble
  (repeat' split)
  · exact breakIfAny_growsTo h
  · exact breakIfAny_growsTo h
  · exact h
  · exact extendMessage_growsTo h _ _

theorem hear_growsTo (h : f.GrowsTo s.faults) (ch : Character) : f.GrowsTo (hear ch s).faults := by
  unfold hear
  split
  · exact h
  · exact assemble_growsTo h ch

theorem receive_growsTo (h : f.GrowsTo s.faults) (bits : CharacterBits) : f.GrowsTo (receive bits s).faults := by
  have hnote : f.GrowsTo (noteStart s).faults := by simpa using h
  unfold receive
  split
  · exact h
  · exact h
  all_goals exact hear_growsTo hnote _

theorem dispatchStatus_growsTo (h : f.GrowsTo s.faults) : f.GrowsTo (dispatchStatus s).faults := by
  unfold dispatchStatus
  (repeat' (first | split | (dsimp only; split))) <;> simp [h]

theorem dispatchNotice_growsTo (h : f.GrowsTo s.faults) (mk : MsgKind) (kind : HandoverKind) :
    f.GrowsTo (dispatchNotice mk kind s).faults := by
  unfold dispatchNotice
  (repeat' (first | split | (dsimp only; split))) <;> simp [h]

theorem abandon_growsTo (h : f.GrowsTo s.faults) : f.GrowsTo (abandon s).faults := by
  have hreport : f.GrowsTo (s.report .busAbandon s.bus.messageKind).faults := h.report _
  have hboth := hreport.raise .abandon
  unfold abandon
  dsimp only
  split
  · simpa using hboth
  · exact hboth

theorem collide_growsTo (h : f.GrowsTo s.faults) : f.GrowsTo (collide s).faults := by
  unfold collide
  dsimp only
  split
  · simpa using abandon_growsTo (s := (s.count .collision).setBus _) (h.raise .collision)
  · simp [h]

/-! ### Orders (R116, R177 to R183) -/

@[simp] theorem answerOrder_growsTo (h : f.GrowsTo s.faults) (o : Order) (r : OrderResult) (data : List Byte) :
    f.GrowsTo (answerOrder o r data s).faults := by
  unfold answerOrder pushAnswer
  (repeat' split) <;> simp [h]

theorem dropShortOrder_growsTo (h : f.GrowsTo s.faults) : f.GrowsTo (dropShortOrder s).faults := by
  unfold dropShortOrder
  (repeat' split) <;> simp [h]

theorem settleOrder_growsTo {act : Order → State → Settled} (hact : ∀ o s, (act o s).after.faults = s.faults)
    (h : f.GrowsTo s.faults) (m : Message) (o : Order) : f.GrowsTo (settleOrder act m o s).faults := by
  unfold settleOrder
  dsimp only
  refine answerOrder_growsTo ?_ _ _ _
  split
  · rwa [hact]
  · exact h

/-- Of the orders CLEAR alone empties the Fault Unit (R183). -/
theorem carriedBy_growsTo {c : Instr} (hc : c ≠ .clear) (h : f.GrowsTo s.faults) (m : Message) (o : Order) :
    f.GrowsTo (carriedBy c m o s).faults := by
  cases c with
  | clear => exact absurd rfl hc
  | orderUnknown => exact answerOrder_growsTo h _ _ _
  | restart =>
    simp only [carriedBy, carryRestart]
    split <;> simp [h]
  | dark => exact settleOrder_growsTo (fun o s => by simp [actDark, carriedOut]) h m o
  | level | light | pattern | store | sleep | wake =>
    refine settleOrder_growsTo (fun o s => ?_) h m o
    simp only [actLevel, actLight, actPattern, actStore, actSleep, actWake, refuse, carriedOut]
    (repeat' split) <;> simp
  | readStartRecord | readCounters | readPeerEntry | readZone | readFaultRecord | readPhotometer
  | readLevels =>
    refine settleOrder_growsTo (fun o s => ?_) h m o
    simp only [actRead, actReadPeer, actReadZone, refuse]
    split <;> rfl
  | _ => exact h

theorem withOrder_growsTo {carry : Message → Order → State → State}
    (hcarry : ∀ m o (t : State), f.GrowsTo t.faults → f.GrowsTo (carry m o t).faults) (h : f.GrowsTo s.faults)
    (accepts : Order → Bool) : f.GrowsTo (withOrder accepts carry s).faults := by
  have hpop : f.GrowsTo (popQueue s).faults := by simpa using h
  unfold withOrder
  (repeat' (first | split | (dsimp only; split)))
  · exact h
  · exact h
  · exact hcarry _ _ _ hpop
  · exact hpop
  · exact h
  · exact h

/-! ### Every command -/

theorem perform_growsTo (h : f.GrowsTo s.faults) (d : DueStep) : f.GrowsTo (perform d s).faults := by
  cases d with
  | listenPeriodEnd | rejoin => simp only [perform]; split <;> simp [h]
  | peerLost n | peerPurge n | announcement => simpa [perform] using h
  | holdLimit => exact holdTest_growsTo h

end Grows

/-- What a state holds in its Fault Unit has come of `f` with no CLEAR. -/
abbrev FaultsFrom (f : FaultUnit) (s : State) : Prop := f.GrowsTo s.faults

/-- An operation that leaves the Fault Unit alone. -/
theorem keeps_faultsFrom_of_eq {f : FaultUnit} {g : State → State} (h : ∀ s, (g s).faults = s.faults) :
    Keeps (FaultsFrom f) g := fun s hs => by
  rwa [FaultsFrom, h]

section Commands

variable {f : FaultUnit} {s u : State}

theorem faultsFrom_keptInPassing (f : FaultUnit) : KeptInPassing (FaultsFrom f) where
  clock t := keeps_faultsFrom_of_eq fun s => by simp
  transmitter := keeps_faultsFrom_of_eq fun s => by simp
  step d := fun _ hs => perform_growsTo (by simpa using hs) d
  restart := keeps_faultsFrom_of_eq fun s => by simp

theorem lineEdge_keepsFaultsFrom {g : State → State} (hg : Keeps (FaultsFrom f) g) (t : Nat) (low : Bool) :
    Keeps (FaultsFrom f) (lineEdge t low g) :=
  .ite (Keeps.atTime (faultsFrom_keptInPassing f)
      (hg.comp (f := (State.setLine · low)) fun _ hs => hs) t) fun _ hs => hs

theorem order_faultsFrom {c : Instr} (hc : c ≠ .clear) (h : exec c s = .next u)
    (hrun : exec c s = .next (whenRunning (withOrder c.takesOrder (carriedBy c)) s)) :
    FaultsFrom f s → FaultsFrom f u :=
  Keeps.of_next (hrun.symm.trans h) (Keeps.whenRunning (faultsFrom_keptInPassing f)
    (fun _ hs => withOrder_growsTo (fun m o _ ht => carriedBy_growsTo hc ht m o) hs _) s)

/-- No command but CLEAR and those of supply and pin takes anything from the Fault Unit. -/
theorem exec_faultsFrom {c : Instr} (h : exec c s = .next u) (hc : c ≠ .clear)
    (hreset : ∀ t, c ≠ .powerOn t ∧ c ≠ .pinReset t ∧ c ≠ .powerLost t) : FaultsFrom f s → FaultsFrom f u := by
  have hp := faultsFrom_keptInPassing f
  cases c with
  | powerOn t => exact absurd rfl (hreset t).1
  | pinReset t => exact absurd rfl (hreset t).2.1
  | powerLost t => exact absurd rfl (hreset t).2.2
  | clear => exact absurd rfl hc
  | resetRelease t straps =>
    exact Keeps.of_next h (Keeps.ite (p := (·.resetPhase = .held))
      (f := fun s => releaseReset straps (advanceTo t s))
      (keeps_faultsFrom_of_eq fun s => by simp [releaseReset]) .id s)
  | restartReset =>
    exact Keeps.of_next h (hp.settle.ite (p := fun s => s.resetPhase = .running ∧ s.restartDue = true) .id s)
  | frameLineFall t =>
    exact Keeps.of_next h (lineEdge_keepsFaultsFrom (.ite .id fun _ => takeFall_growsTo) t _ s)
  | frameLineRise t =>
    exact Keeps.of_next h
      (lineEdge_keepsFaultsFrom (.ite .id (keeps_faultsFrom_of_eq fun _ => by simp)) t _ s)
  | frameTimerExpiry => exact Keeps.of_next h (Keeps.atDeadline hp (fun _ => takeExpiry_growsTo) _ s)
  | lineStuck => exact Keeps.of_next h (Keeps.atDeadline hp (fun _ => becomeStuck_growsTo) _ s)
  | inputLossTimeout => exact Keeps.of_next h (Keeps.atDeadline hp (fun _ => loseInput_growsTo) _ s)
  | assemblerTimeout => exact Keeps.of_next h (Keeps.atDeadline hp (fun _ => breakMessage_growsTo) _ s)
  | assertionEnd | lineRecovery | pacePulseEnd | rasterDone | eepromReadyTimeout | storeFlagClear | gapElapsed
  | backoffElapsed | leadStart | messageSent =>
    exact Keeps.of_next h (Keeps.atDeadline hp (keeps_faultsFrom_of_eq fun _ => by simp) _ s)
  | frameStart t => exact Keeps.of_next h (Keeps.linkEvent hp (fun _ => takeFrameStart_growsTo) t s)
  | line t pixels => exact Keeps.of_next h (Keeps.linkEvent hp (keeps_faultsFrom_of_eq fun _ => by simp) t s)
  | frameEnd t => exact Keeps.of_next h (Keeps.linkEvent hp (fun _ => takeFrameEnd_growsTo) t s)
  | listenPeriodEnd => exact Keeps.of_next h (hp.takeDue .listenPeriodEnd s)
  | rejoin => exact Keeps.of_next h (hp.takeDue .rejoin s)
  | peerLost n => exact Keeps.of_next h (hp.takeDue (.peerLost n) s)
  | peerPurge n => exact Keeps.of_next h (hp.takeDue (.peerPurge n) s)
  | announcementDue => exact Keeps.of_next h (hp.takeDue .announcement s)
  | holdLimitPassed => exact Keeps.of_next h (hp.takeDue .holdLimit s)
  | storeTransferEnd t | startBit t =>
    exact Keeps.of_next h (Keeps.atTime hp (keeps_faultsFrom_of_eq fun _ => by simp) t s)
  | eepromAcknowledge t =>
    exact Keeps.of_next h (Keeps.atTime hp (.ite (keeps_faultsFrom_of_eq fun _ => by simp) .id) t s)
  | headerCheck t => exact Keeps.of_next h (Keeps.atTime hp (.ite (fun _ => checkHeader_growsTo) .id) t s)
  | loadFinished t => exact Keeps.of_next h (Keeps.atTime hp (.ite (fun _ => finishLoad_growsTo) .id) t s)
  | collision t => exact Keeps.of_next h (Keeps.atTime hp (.ite (fun _ => collide_growsTo) .id) t s)
  | sectionCheck t => exact Keeps.of_next h (Keeps.atTime hp (fun _ => checkSection_growsTo) t s)
  | characterReceived t bits =>
    exact Keeps.of_next h (Keeps.atTime hp (fun _ hs => receive_growsTo hs bits) t s)
  | scanComplete codes => exact Keeps.of_next h (Keeps.whenRunning hp (fun _ hs => finishScan_growsTo hs codes) s)
  | statusApplied => exact Keeps.of_next h (Keeps.whenRunning hp (fun _ => dispatchStatus_growsTo) s)
  | joinApplied => exact Keeps.of_next h (Keeps.whenRunning hp (fun _ hs => dispatchNotice_growsTo hs _ _) s)
  | leaveApplied => exact Keeps.of_next h (Keeps.whenRunning hp (fun _ hs => dispatchNotice_growsTo hs _ _) s)
  | orderTooShort => exact Keeps.of_next h (Keeps.whenRunning hp (fun _ => dropShortOrder_growsTo) s)
  | orderUnknown | level | dark | light | pattern | readStartRecord | readCounters | readPeerEntry
  | readZone | readFaultRecord | readPhotometer | readLevels | store | restart | sleep | wake =>
    exact order_faultsFrom hc h rfl

end Commands

/-- Settles O59: a report by the record it finds, and the rest by what no command takes from the Fault Unit. -/
theorem firstFaultIsKept : Obligations.FirstFaultIsKept := by
  unfold Obligations.FirstFaultIsKept
  refine ⟨fun g r => ⟨fun hnone => ?empty, fun k hfilled => ?filled⟩, fun _ _ _ => rfl,
    fun c s u h hc hreset hbounds => ?kept⟩
  case empty => rw [FaultUnit.report, hnone]
  case filled => rw [FaultUnit.report, hfilled, satInc]
  case kept =>
    obtain ⟨hrecord, hoverflow, hcounters⟩ := exec_faultsFrom h hc hreset hbounds.growsTo
    exact ⟨hrecord, Nat.le_trans hoverflow (Nat.min_le_right ..),
      fun i => Nat.le_trans (hcounters i) (Nat.min_le_right ..)⟩

end Sys2Proof.Machine
end

section
/-! PROOFS. A RESTART in hand (R177, R182; assumptions 20, 35): what the order leaves, and when its reset is due. -/

namespace Sys2Proof.Machine

/-- An addressed order that its command takes is popped and carried out with the message that brought it. -/
theorem whenRunning_withOrder_cons {s : State} {c : Instr} {o : Order} {m : Message} {rest : List Message}
    (h : s.ordered c o) (hq : s.bus.rxQueue = m :: rest) (carry : Message → Order → State → State) :
    whenRunning (withOrder c.takesOrder carry) s = refreshTx (carry m o (popQueue s)) := by
  obtain ⟨hcalm, ho, htakes, haddressed⟩ := h
  obtain ⟨m', rest', hq', -, -, hw⟩ := withOrder_of_head (carry := carry) ho htakes
  obtain ⟨rfl, -⟩ := List.cons.inj (hq.symm.trans hq')
  rw [whenRunning_of_calm hcalm, hw, if_pos haddressed]

/-- A RESTART with its arguments right is answered and stays in hand; its reset is released unless an answer of it
waits (R182). -/
theorem carryRestart_of_args {o : Order} {s : State} {waits : Bool} (hlen : o.args.length = argumentBytes o.code)
    (hwaits : waits = true ↔ o.mask = 31 ∧ s.stn ≠ 0 ∧ s.bus.answers.length < 4) (m : Message) :
    carryRestart m o s = { answerOrder o .done [] s with console := {
      inHand := some m, restartPending := true, restartReleased := !waits } } := by
  have heq : (o.individual s && decide (s.bus.answers.length < answerRoom)) = waits := by
    rw [Bool.eq_iff_iff, hwaits, Bool.and_eq_true, Order.individual_iff, decide_eq_true_iff, and_assoc]
    rfl
  rw [carryRestart, if_pos hlen, heq]
  rfl

/-- Settles O45: the order carried out, and then what its console holds says when the reset is due. -/
theorem restartWaitsForItsAnswer : Obligations.RestartWaitsForItsAnswer := by
  unfold Obligations.RestartWaitsForItsAnswer
  rintro s p o m rest ho hargs hq rfl waits hwaits
  have hpop : popQueue s = { s with bus := { s.bus with rxQueue := rest } } := by rw [popQueue, hq]; rfl
  have hlen : o.args.length = argumentBytes o.code := by
    rw [hargs, code_of_ordered ho rfl]
    rfl
  have hrun : exec .restart s = .next (refreshTx (carryRestart m o (popQueue s))) :=
    congrArg _ (whenRunning_withOrder_cons ho hq carryRestart)
  rw [carryRestart_of_args hlen (by simpa [State.stn] using hwaits), hpop] at hrun
  exact ⟨_, hrun, rfl, by simp [State.restartDue], orderAtHead_of_not_taking (.inr (by simp))⟩

end Sys2Proof.Machine
end

section
/-! PROOFS. The queue of commands: a step takes its front (assumption 4), and no command's own effect, nor what
runs beside it, touches what is left. -/

namespace Sys2Proof.Machine

/-! ### A step -/

theorem step_of_front {c : Instr} {rest : List Instr} {s : State} (h : s.pending = c :: rest) :
    step s = exec c { s with pending := rest } := by
  rw [step, h]

theorem step_of_empty {s : State} (h : s.pending = []) : step s = .next s := by
  rw [step, h]

/-- Settles O1: by the two arms of a step. -/
theorem stepRunsFrontCommand : Obligations.StepRunsFrontCommand := by
  unfold Obligations.StepRunsFrontCommand
  exact ⟨fun _ _ _ => step_of_front, fun _ => step_of_empty⟩

/-! ### Own effects that leave the queue alone -/

/-- The commands still to come are these. -/
abbrev QueueIs (q : List Instr) (s : State) : Prop := s.pending = q

/-- An operation that does not touch the queue of commands. -/
def LeavesQueue (f : State → State) : Prop := ∀ s, (f s).pending = s.pending

theorem LeavesQueue.keeps {f : State → State} (h : LeavesQueue f) (q : List Instr) : Keeps (QueueIs q) f :=
  fun s hs => (h s).trans hs

theorem frameMark_leavesQueue : LeavesQueue frameMark := fun s => by simp [frameMark]

theorem takeFall_leavesQueue : LeavesQueue takeFall := fun s => by
  cases hline : s.timer.lineState with
  | stuck => rw [takeFall_of_stuck hline]; rfl
  | normal =>
    rw [takeFall_of_normal hline]
    split
    · exact frameMark_leavesQueue _
    · simp

theorem takeExpiry_leavesQueue : LeavesQueue takeExpiry := fun s => by
  cases hline : s.timer.lineState with
  | stuck => rw [takeExpiry_of_stuck hline]; exact frameMark_leavesQueue _
  | normal =>
    by_cases hsleep : s.life.state = .sleep
    · rw [takeExpiry_of_sleep hline hsleep]; rfl
    · rw [takeExpiry_of_awake hline hsleep]; rfl

theorem checkSection_leavesQueue : LeavesQueue checkSection := fun s => by
  unfold checkSection
  split
  · dsimp only
    (repeat' split) <;> simp
  · rfl

theorem finishLoad_leavesQueue : LeavesQueue finishLoad := fun s => by
  unfold finishLoad
  dsimp only
  (repeat' split) <;> simp

theorem completeScan_leavesQueue : LeavesQueue completeScan := fun s => by
  unfold completeScan
  (repeat' split) <;> simp

theorem finishScan_leavesQueue (codes : List (BitVec 12)) : LeavesQueue (finishScan codes) := fun s => by
  unfold finishScan
  split
  · simp [completeScan_leavesQueue _]
  · rfl

theorem receive_leavesQueue (bits : CharacterBits) : LeavesQueue (receive bits) := fun s => by
  unfold receive
  split <;> simp

theorem dispatchStatus_leavesQueue : LeavesQueue dispatchStatus := fun s => by
  unfold dispatchStatus
  (repeat' (first | split | (dsimp only; split))) <;> simp [applyStatus]

theorem dispatchNotice_leavesQueue (mk : MsgKind) (kind : HandoverKind) :
    LeavesQueue (dispatchNotice mk kind) := fun s => by
  unfold dispatchNotice
  (repeat' (first | split | (dsimp only; split))) <;> simp [applyNotice]

theorem dropShortOrder_leavesQueue : LeavesQueue dropShortOrder := fun s => by
  unfold dropShortOrder
  (repeat' split) <;> simp

/-! ### Orders (R177 to R183) -/

theorem settleOrder_leavesQueue {act : Order → State → Settled} (hact : ∀ o, LeavesQueue fun s => (act o s).after)
    (m : Message) (o : Order) : LeavesQueue (settleOrder act m o) := fun s => by
  unfold settleOrder
  dsimp only
  split
  · simp [hact o s]
  · simp [refuse]

theorem carryRestart_leavesQueue (m : Message) (o : Order) : LeavesQueue (carryRestart m o) := fun s => by
  unfold carryRestart
  split <;> simp

theorem carriedBy_leavesQueue (c : Instr) (m : Message) (o : Order) : LeavesQueue (carriedBy c m o) := by
  cases c with
  | orderUnknown => exact fun s => by simp [carriedBy, carryUnknown]
  | restart => exact carryRestart_leavesQueue m o
  | dark | clear => exact settleOrder_leavesQueue (fun o s => by simp [actDark, actClear, carriedOut]) m o
  | level | light | pattern | store | sleep | wake =>
    refine settleOrder_leavesQueue (fun o s => ?_) m o
    simp only [actLevel, actLight, actPattern, actStore, actSleep, actWake, refuse, carriedOut]
    (repeat' split) <;> simp
  | readStartRecord | readCounters | readPeerEntry | readZone | readFaultRecord | readPhotometer
  | readLevels =>
    refine settleOrder_leavesQueue (fun o s => ?_) m o
    simp only [actRead, actReadPeer, actReadZone, refuse]
    split <;> rfl
  | _ => exact fun s => rfl

theorem withOrder_leavesQueue {accepts : Order → Bool} {carry : Message → Order → State → State}
    (hcarry : ∀ m o, LeavesQueue (carry m o)) : LeavesQueue (withOrder accepts carry) := fun s => by
  unfold withOrder
  (repeat' (first | split | (dsimp only; split))) <;> simp [hcarry _ _ _]

/-! ### Every command -/

/-- A reset's blocks take their reset values around the queue (R164). -/
theorem holdReset_leavesQueue (cause : ResetCause) : LeavesQueue (holdReset cause) := fun _ => rfl

theorem queueIs_keptInPassing (q : List Instr) : KeptInPassing (QueueIs q) where
  clock t := LeavesQueue.keeps (fun s => by simp) q
  transmitter := LeavesQueue.keeps (fun s => by simp) q
  step d := LeavesQueue.keeps (fun s => by simp) q
  restart := LeavesQueue.keeps (fun s => by simp) q

section Commands

theorem LeavesQueue.id : LeavesQueue fun s => s := fun _ => rfl

variable {f g : State → State} (hf : LeavesQueue f)

include hf

theorem LeavesQueue.ite {p : State → Prop} [∀ s, Decidable (p s)] (hg : LeavesQueue g) :
    LeavesQueue fun s => if p s then f s else g s :=
  fun s => (hf.keeps _).ite (hg.keeps _) s rfl

theorem LeavesQueue.atTime (t : Nat) : LeavesQueue (atTime t f) :=
  fun s => (hf.keeps _).atTime (queueIs_keptInPassing _) t s rfl

theorem LeavesQueue.atDeadline (deadline : State → Option Nat) : LeavesQueue (atDeadline deadline f) :=
  fun s => (hf.keeps _).atDeadline (queueIs_keptInPassing _) deadline s rfl

theorem LeavesQueue.whenRunning : LeavesQueue (whenRunning f) :=
  fun s => (hf.keeps _).whenRunning (queueIs_keptInPassing _) s rfl

theorem LeavesQueue.linkEvent (t : Nat) : LeavesQueue (linkEvent t f) :=
  fun s => (hf.keeps _).linkEvent (queueIs_keptInPassing _) t s rfl

theorem LeavesQueue.lineEdge (t : Nat) (low : Bool) : LeavesQueue (lineEdge t low f) := fun s => by
  unfold Machine.lineEdge
  split
  · exact LeavesQueue.atTime (f := fun s => f (s.setLine low)) (fun s => hf _) t s
  · rfl

end Commands

theorem runTo_leavesQueue (t : Nat) : LeavesQueue (runTo t) :=
  fun s => (queueIs_keptInPassing _).runTo t s rfl

theorem losePower_runTo_leavesQueue (t : Nat) : LeavesQueue fun s => losePower (runTo t s) :=
  fun s => by simp [runTo_leavesQueue t s]

/-- POWER_ON finds a part without supply, or one whose supply has been lost before (R176). -/
theorem powerOn_leavesQueue (t : Nat) : LeavesQueue fun s =>
    holdReset .power (if s.resetPhase = .unpowered then runTo t s else losePower (runTo t s)) := fun s => by
  rw [holdReset_leavesQueue]
  split
  · exact runTo_leavesQueue t s
  · exact losePower_runTo_leavesQueue t s

/-- A command that runs as the console's orders do. -/
theorem order_leavesQueue {c : Instr} {s : State}
    (hc : exec c s = .next (whenRunning (withOrder c.takesOrder (carriedBy c)) s)) :
    ∃ u, exec c s = .next u ∧ u.pending = s.pending :=
  ⟨_, hc, (withOrder_leavesQueue (carriedBy_leavesQueue c)).whenRunning s⟩

/-- Settles O2: each command's answer is the state that its effect leaves, and no effect touches the queue. -/
theorem everyCommandAnswersAndKeepsQueue : Obligations.EveryCommandAnswersAndKeepsQueue := by
  unfold Obligations.EveryCommandAnswersAndKeepsQueue
  intro c s
  cases c with
  | powerOn t => exact ⟨_, rfl, powerOn_leavesQueue t s⟩
  | pinReset t =>
    exact ⟨_, rfl, LeavesQueue.id.ite (p := (·.resetPhase = .unpowered))
      (g := fun s => holdReset .pin (runTo t s)) (runTo_leavesQueue t) s⟩
  | resetRelease t straps =>
    exact ⟨_, rfl, LeavesQueue.ite (p := (·.resetPhase = .held))
      (f := fun s => releaseReset straps (advanceTo t s)) (fun s => by simp [releaseReset]) .id s⟩
  | powerLost t =>
    exact ⟨_, rfl, LeavesQueue.id.ite (p := (·.resetPhase = .unpowered))
      (g := fun s => (resetBlocks .power (losePower (runTo t s))).setResetPhase .unpowered)
      (losePower_runTo_leavesQueue t) s⟩
  | restartReset =>
    exact ⟨_, rfl, LeavesQueue.ite (p := fun s => s.resetPhase = .running ∧ s.restartDue = true)
      (f := settle) (fun s => by simp) .id s⟩
  | frameLineFall t => exact ⟨_, rfl, (LeavesQueue.id.ite takeFall_leavesQueue).lineEdge t _ s⟩
  | frameLineRise t =>
    exact ⟨_, rfl, (LeavesQueue.id.ite (g := takeRise) fun s => by simp).lineEdge t _ s⟩
  | frameTimerExpiry => exact ⟨_, rfl, takeExpiry_leavesQueue.atDeadline _ s⟩
  | assertionEnd | lineStuck | lineRecovery | pacePulseEnd | rasterDone | inputLossTimeout
  | assemblerTimeout | eepromReadyTimeout | storeFlagClear | gapElapsed | backoffElapsed | leadStart
  | messageSent => exact ⟨_, rfl, LeavesQueue.atDeadline (fun _ => by simp) _ s⟩
  | frameStart t | line t pixels | frameEnd t =>
    exact ⟨_, rfl, LeavesQueue.linkEvent (fun _ => by simp) t s⟩
  | listenPeriodEnd | rejoin | peerLost n | peerPurge n | announcementDue | holdLimitPassed =>
    exact ⟨_, rfl, (takeDue_frame _ s).1⟩
  | storeTransferEnd t | startBit t => exact ⟨_, rfl, LeavesQueue.atTime (fun _ => by simp) t s⟩
  | eepromAcknowledge t | headerCheck t | collision t =>
    exact ⟨_, rfl, LeavesQueue.atTime (.ite (fun _ => by simp) .id) t s⟩
  | sectionCheck t => exact ⟨_, rfl, checkSection_leavesQueue.atTime t s⟩
  | loadFinished t => exact ⟨_, rfl, (finishLoad_leavesQueue.ite .id).atTime t s⟩
  | characterReceived t bits => exact ⟨_, rfl, (receive_leavesQueue bits).atTime t s⟩
  | scanComplete codes => exact ⟨_, rfl, (finishScan_leavesQueue codes).whenRunning s⟩
  | statusApplied => exact ⟨_, rfl, dispatchStatus_leavesQueue.whenRunning s⟩
  | joinApplied => exact ⟨_, rfl, (dispatchNotice_leavesQueue .join .join).whenRunning s⟩
  | leaveApplied => exact ⟨_, rfl, (dispatchNotice_leavesQueue .leave .leave).whenRunning s⟩
  | orderTooShort => exact ⟨_, rfl, dropShortOrder_leavesQueue.whenRunning s⟩
  | orderUnknown | level | dark | light | pattern | readStartRecord | readCounters | readPeerEntry
  | readZone | readFaultRecord | readPhotometer | readLevels | clear | store | restart | sleep | wake =>
    exact order_leavesQueue rfl

end Sys2Proof.Machine
end
